-- ==== Sys2Proof/Word.lean ====
section
/-! DEFINITION. The two word types of the machine (00_scope.md R7, R8): an 8-bit byte and a 16-bit
bus address. Both are bit vectors, because the spec adds, shifts, masks and wraps them. -/

namespace Sys2Proof

/-- `u8`: a byte, unsigned (R7, R8). -/
abbrev Byte := BitVec 8

/-- `u16`: a CPU bus address, and the width of `PC` and of the VRAM address latch (R7, R8). -/
abbrev Addr := BitVec 16

end Sys2Proof
end

