-- ==== Sys2Proof/Machine/Bits.lean ====
section
/-! DEFINITION. Byte order and sign extension, in one place (20_memory.md R75; 00_scope.md R8). -/

namespace Sys2Proof

/-- `{hi, lo}`: the 16-bit value with the given high and low byte (R8). -/
def pair (hi lo : Byte) : Addr := hi ++ lo

/-- `a[15:8]` (R8). -/
def hiByte (a : Addr) : Byte := a.extractLsb' 8 8

/-- `a[7:0]` (R8). -/
def loByte (a : Addr) : Byte := a.extractLsb' 0 8

/-- `zext_16(b)`: the same number as a `u16` (R8). -/
def zext16 (b : Byte) : Addr := b.setWidth 16

/-- `sext_8(b)` as a 16-bit two's-complement value (R8): the only signed reading in the machine. -/
def sext8 (b : Byte) : Addr := b.signExtend 16

end Sys2Proof
end

