-- ==== Sys2Proof/Syntax.lean ====
section
/-! DEFINITION. The instructions: one constructor for each of the 151 rows of spec/opcode_table.json
(30_encoding.md R120), named by mnemonic and addressing mode. `v` is an immediate value, `b1` a
zero-page operand byte, `off` a branch displacement byte, `addr` the 16-bit operand with `b2` as high
and `b1` as low byte (R102). -/

namespace Sys2Proof

/-- One decoded instruction (R120). The constructors of the 20 extension rows say so (R113, R122). -/
inductive Instr where
  /-- LDA immediate, opcode 0xA9 (R141, R105). -/
  | ldaImm (v : Byte)
  /-- LDA zero page, opcode 0xA5 (R141, R106). -/
  | ldaZp (b1 : Byte)
  /-- LDA zero page,X, opcode 0xB5 (R141, R108). -/
  | ldaZpx (b1 : Byte)
  /-- LDA absolute, opcode 0xAD (R141, R109). -/
  | ldaAbs (addr : Addr)
  /-- LDA absolute,X, opcode 0xBD (R141, R110). -/
  | ldaAbsx (addr : Addr)
  /-- LDA absolute,Y (extension), opcode 0xB9 (R141, R115). -/
  | ldaAbsy (addr : Addr)
  /-- LDA (zero page,X), opcode 0xA1 (R141, R112). -/
  | ldaIzx (b1 : Byte)
  /-- LDA (zero page),Y (extension), opcode 0xB1 (R141, R117). -/
  | ldaIzy (b1 : Byte)
  /-- LDX immediate, opcode 0xA2 (R142, R105). -/
  | ldxImm (v : Byte)
  /-- LDX zero page, opcode 0xA6 (R142, R106). -/
  | ldxZp (b1 : Byte)
  /-- LDX zero page,Y (extension), opcode 0xB6 (R142, R114). -/
  | ldxZpy (b1 : Byte)
  /-- LDX absolute, opcode 0xAE (R142, R109). -/
  | ldxAbs (addr : Addr)
  /-- LDX absolute,Y (extension), opcode 0xBE (R142, R115). -/
  | ldxAbsy (addr : Addr)
  /-- LDY immediate, opcode 0xA0 (R143, R105). -/
  | ldyImm (v : Byte)
  /-- LDY zero page, opcode 0xA4 (R143, R106). -/
  | ldyZp (b1 : Byte)
  /-- LDY zero page,X, opcode 0xB4 (R143, R108). -/
  | ldyZpx (b1 : Byte)
  /-- LDY absolute, opcode 0xAC (R143, R109). -/
  | ldyAbs (addr : Addr)
  /-- LDY absolute,X, opcode 0xBC (R143, R110). -/
  | ldyAbsx (addr : Addr)
  /-- STA zero page, opcode 0x85 (R144, R106). -/
  | staZp (b1 : Byte)
  /-- STA zero page,X, opcode 0x95 (R144, R108). -/
  | staZpx (b1 : Byte)
  /-- STA absolute, opcode 0x8D (R144, R109). -/
  | staAbs (addr : Addr)
  /-- STA absolute,X, opcode 0x9D (R144, R110). -/
  | staAbsx (addr : Addr)
  /-- STA absolute,Y (extension), opcode 0x99 (R144, R115). -/
  | staAbsy (addr : Addr)
  /-- STA (zero page,X), opcode 0x81 (R144, R112). -/
  | staIzx (b1 : Byte)
  /-- STA (zero page),Y (extension), opcode 0x91 (R144, R117). -/
  | staIzy (b1 : Byte)
  /-- STX zero page, opcode 0x86 (R145, R106). -/
  | stxZp (b1 : Byte)
  /-- STX zero page,Y (extension), opcode 0x96 (R145, R114). -/
  | stxZpy (b1 : Byte)
  /-- STX absolute, opcode 0x8E (R145, R109). -/
  | stxAbs (addr : Addr)
  /-- STY zero page, opcode 0x84 (R146, R106). -/
  | styZp (b1 : Byte)
  /-- STY zero page,X, opcode 0x94 (R146, R108). -/
  | styZpx (b1 : Byte)
  /-- STY absolute, opcode 0x8C (R146, R109). -/
  | styAbs (addr : Addr)
  /-- TAX implied, opcode 0xAA (R147, R103). -/
  | tax
  /-- TAY implied, opcode 0xA8 (R148, R103). -/
  | tay
  /-- TXA implied, opcode 0x8A (R149, R103). -/
  | txa
  /-- TYA implied, opcode 0x98 (R150, R103). -/
  | tya
  /-- TSX implied, opcode 0xBA (R151, R103). -/
  | tsx
  /-- TXS implied, opcode 0x9A (R152, R103). -/
  | txs
  /-- ADC immediate, opcode 0x69 (R160, R105). -/
  | adcImm (v : Byte)
  /-- ADC zero page, opcode 0x65 (R160, R106). -/
  | adcZp (b1 : Byte)
  /-- ADC zero page,X, opcode 0x75 (R160, R108). -/
  | adcZpx (b1 : Byte)
  /-- ADC absolute, opcode 0x6D (R160, R109). -/
  | adcAbs (addr : Addr)
  /-- ADC absolute,X, opcode 0x7D (R160, R110). -/
  | adcAbsx (addr : Addr)
  /-- ADC absolute,Y (extension), opcode 0x79 (R160, R115). -/
  | adcAbsy (addr : Addr)
  /-- ADC (zero page,X), opcode 0x61 (R160, R112). -/
  | adcIzx (b1 : Byte)
  /-- ADC (zero page),Y (extension), opcode 0x71 (R160, R117). -/
  | adcIzy (b1 : Byte)
  /-- SBC immediate, opcode 0xE9 (R161, R105). -/
  | sbcImm (v : Byte)
  /-- SBC zero page, opcode 0xE5 (R161, R106). -/
  | sbcZp (b1 : Byte)
  /-- SBC zero page,X, opcode 0xF5 (R161, R108). -/
  | sbcZpx (b1 : Byte)
  /-- SBC absolute, opcode 0xED (R161, R109). -/
  | sbcAbs (addr : Addr)
  /-- SBC absolute,X, opcode 0xFD (R161, R110). -/
  | sbcAbsx (addr : Addr)
  /-- SBC absolute,Y (extension), opcode 0xF9 (R161, R115). -/
  | sbcAbsy (addr : Addr)
  /-- SBC (zero page,X), opcode 0xE1 (R161, R112). -/
  | sbcIzx (b1 : Byte)
  /-- SBC (zero page),Y (extension), opcode 0xF1 (R161, R117). -/
  | sbcIzy (b1 : Byte)
  /-- AND immediate, opcode 0x29 (R162, R105). -/
  | andImm (v : Byte)
  /-- AND zero page, opcode 0x25 (R162, R106). -/
  | andZp (b1 : Byte)
  /-- AND zero page,X, opcode 0x35 (R162, R108). -/
  | andZpx (b1 : Byte)
  /-- AND absolute, opcode 0x2D (R162, R109). -/
  | andAbs (addr : Addr)
  /-- AND absolute,X, opcode 0x3D (R162, R110). -/
  | andAbsx (addr : Addr)
  /-- AND absolute,Y (extension), opcode 0x39 (R162, R115). -/
  | andAbsy (addr : Addr)
  /-- AND (zero page,X), opcode 0x21 (R162, R112). -/
  | andIzx (b1 : Byte)
  /-- AND (zero page),Y (extension), opcode 0x31 (R162, R117). -/
  | andIzy (b1 : Byte)
  /-- ORA immediate, opcode 0x09 (R163, R105). -/
  | oraImm (v : Byte)
  /-- ORA zero page, opcode 0x05 (R163, R106). -/
  | oraZp (b1 : Byte)
  /-- ORA zero page,X, opcode 0x15 (R163, R108). -/
  | oraZpx (b1 : Byte)
  /-- ORA absolute, opcode 0x0D (R163, R109). -/
  | oraAbs (addr : Addr)
  /-- ORA absolute,X, opcode 0x1D (R163, R110). -/
  | oraAbsx (addr : Addr)
  /-- ORA absolute,Y (extension), opcode 0x19 (R163, R115). -/
  | oraAbsy (addr : Addr)
  /-- ORA (zero page,X), opcode 0x01 (R163, R112). -/
  | oraIzx (b1 : Byte)
  /-- ORA (zero page),Y (extension), opcode 0x11 (R163, R117). -/
  | oraIzy (b1 : Byte)
  /-- EOR immediate, opcode 0x49 (R164, R105). -/
  | eorImm (v : Byte)
  /-- EOR zero page, opcode 0x45 (R164, R106). -/
  | eorZp (b1 : Byte)
  /-- EOR zero page,X, opcode 0x55 (R164, R108). -/
  | eorZpx (b1 : Byte)
  /-- EOR absolute, opcode 0x4D (R164, R109). -/
  | eorAbs (addr : Addr)
  /-- EOR absolute,X, opcode 0x5D (R164, R110). -/
  | eorAbsx (addr : Addr)
  /-- EOR absolute,Y (extension), opcode 0x59 (R164, R115). -/
  | eorAbsy (addr : Addr)
  /-- EOR (zero page,X), opcode 0x41 (R164, R112). -/
  | eorIzx (b1 : Byte)
  /-- EOR (zero page),Y (extension), opcode 0x51 (R164, R117). -/
  | eorIzy (b1 : Byte)
  /-- CMP immediate, opcode 0xC9 (R165, R105). -/
  | cmpImm (v : Byte)
  /-- CMP zero page, opcode 0xC5 (R165, R106). -/
  | cmpZp (b1 : Byte)
  /-- CMP zero page,X, opcode 0xD5 (R165, R108). -/
  | cmpZpx (b1 : Byte)
  /-- CMP absolute, opcode 0xCD (R165, R109). -/
  | cmpAbs (addr : Addr)
  /-- CMP absolute,X, opcode 0xDD (R165, R110). -/
  | cmpAbsx (addr : Addr)
  /-- CMP absolute,Y (extension), opcode 0xD9 (R165, R115). -/
  | cmpAbsy (addr : Addr)
  /-- CMP (zero page,X), opcode 0xC1 (R165, R112). -/
  | cmpIzx (b1 : Byte)
  /-- CMP (zero page),Y (extension), opcode 0xD1 (R165, R117). -/
  | cmpIzy (b1 : Byte)
  /-- CPX immediate, opcode 0xE0 (R166, R105). -/
  | cpxImm (v : Byte)
  /-- CPX zero page, opcode 0xE4 (R166, R106). -/
  | cpxZp (b1 : Byte)
  /-- CPX absolute, opcode 0xEC (R166, R109). -/
  | cpxAbs (addr : Addr)
  /-- CPY immediate, opcode 0xC0 (R167, R105). -/
  | cpyImm (v : Byte)
  /-- CPY zero page, opcode 0xC4 (R167, R106). -/
  | cpyZp (b1 : Byte)
  /-- CPY absolute, opcode 0xCC (R167, R109). -/
  | cpyAbs (addr : Addr)
  /-- BIT zero page, opcode 0x24 (R168, R106). -/
  | bitZp (b1 : Byte)
  /-- BIT absolute, opcode 0x2C (R168, R109). -/
  | bitAbs (addr : Addr)
  /-- INC zero page, opcode 0xE6 (R169, R106). -/
  | incZp (b1 : Byte)
  /-- INC zero page,X, opcode 0xF6 (R169, R108). -/
  | incZpx (b1 : Byte)
  /-- INC absolute, opcode 0xEE (R169, R109). -/
  | incAbs (addr : Addr)
  /-- INC absolute,X, opcode 0xFE (R169, R110). -/
  | incAbsx (addr : Addr)
  /-- DEC zero page, opcode 0xC6 (R170, R106). -/
  | decZp (b1 : Byte)
  /-- DEC zero page,X, opcode 0xD6 (R170, R108). -/
  | decZpx (b1 : Byte)
  /-- DEC absolute, opcode 0xCE (R170, R109). -/
  | decAbs (addr : Addr)
  /-- DEC absolute,X, opcode 0xDE (R170, R110). -/
  | decAbsx (addr : Addr)
  /-- INX implied, opcode 0xE8 (R171, R103). -/
  | inx
  /-- INY implied, opcode 0xC8 (R172, R103). -/
  | iny
  /-- DEX implied, opcode 0xCA (R173, R103). -/
  | dex
  /-- DEY implied, opcode 0x88 (R174, R103). -/
  | dey
  /-- ASL accumulator, opcode 0x0A (R191, R104). -/
  | aslAcc
  /-- ASL zero page, opcode 0x06 (R191, R106). -/
  | aslZp (b1 : Byte)
  /-- ASL zero page,X, opcode 0x16 (R191, R108). -/
  | aslZpx (b1 : Byte)
  /-- ASL absolute, opcode 0x0E (R191, R109). -/
  | aslAbs (addr : Addr)
  /-- ASL absolute,X, opcode 0x1E (R191, R110). -/
  | aslAbsx (addr : Addr)
  /-- LSR accumulator, opcode 0x4A (R192, R104). -/
  | lsrAcc
  /-- LSR zero page, opcode 0x46 (R192, R106). -/
  | lsrZp (b1 : Byte)
  /-- LSR zero page,X, opcode 0x56 (R192, R108). -/
  | lsrZpx (b1 : Byte)
  /-- LSR absolute, opcode 0x4E (R192, R109). -/
  | lsrAbs (addr : Addr)
  /-- LSR absolute,X, opcode 0x5E (R192, R110). -/
  | lsrAbsx (addr : Addr)
  /-- ROL accumulator, opcode 0x2A (R193, R104). -/
  | rolAcc
  /-- ROL zero page, opcode 0x26 (R193, R106). -/
  | rolZp (b1 : Byte)
  /-- ROL zero page,X, opcode 0x36 (R193, R108). -/
  | rolZpx (b1 : Byte)
  /-- ROL absolute, opcode 0x2E (R193, R109). -/
  | rolAbs (addr : Addr)
  /-- ROL absolute,X, opcode 0x3E (R193, R110). -/
  | rolAbsx (addr : Addr)
  /-- ROR accumulator, opcode 0x6A (R194, R104). -/
  | rorAcc
  /-- ROR zero page, opcode 0x66 (R194, R106). -/
  | rorZp (b1 : Byte)
  /-- ROR zero page,X, opcode 0x76 (R194, R108). -/
  | rorZpx (b1 : Byte)
  /-- ROR absolute, opcode 0x6E (R194, R109). -/
  | rorAbs (addr : Addr)
  /-- ROR absolute,X, opcode 0x7E (R194, R110). -/
  | rorAbsx (addr : Addr)
  /-- JMP absolute, opcode 0x4C (R200, R109). -/
  | jmpAbs (addr : Addr)
  /-- JMP indirect (extension), opcode 0x6C (R200, R116). -/
  | jmpInd (addr : Addr)
  /-- JSR absolute, opcode 0x20 (R201, R109). -/
  | jsr (addr : Addr)
  /-- RTS implied, opcode 0x60 (R202, R103). -/
  | rts
  /-- BPL relative, opcode 0x10 (R204, R111). -/
  | bpl (off : Byte)
  /-- BMI relative, opcode 0x30 (R205, R111). -/
  | bmi (off : Byte)
  /-- BVC relative, opcode 0x50 (R206, R111). -/
  | bvc (off : Byte)
  /-- BVS relative, opcode 0x70 (R207, R111). -/
  | bvs (off : Byte)
  /-- BCC relative, opcode 0x90 (R208, R111). -/
  | bcc (off : Byte)
  /-- BCS relative, opcode 0xB0 (R209, R111). -/
  | bcs (off : Byte)
  /-- BNE relative, opcode 0xD0 (R210, R111). -/
  | bne (off : Byte)
  /-- BEQ relative, opcode 0xF0 (R211, R111). -/
  | beq (off : Byte)
  /-- PHA implied, opcode 0x48 (R220, R103). -/
  | pha
  /-- PLA implied, opcode 0x68 (R221, R103). -/
  | pla
  /-- PHP implied, opcode 0x08 (R222, R103). -/
  | php
  /-- PLP implied, opcode 0x28 (R223, R103). -/
  | plp
  /-- CLC implied, opcode 0x18 (R224, R103). -/
  | clc
  /-- SEC implied, opcode 0x38 (R225, R103). -/
  | sec
  /-- CLI implied, opcode 0x58 (R226, R103). -/
  | cli
  /-- SEI implied, opcode 0x78 (R227, R103). -/
  | sei
  /-- CLD implied, opcode 0xD8 (R228, R103). -/
  | cld
  /-- SED implied, opcode 0xF8 (R229, R103). -/
  | sed
  /-- CLV implied, opcode 0xB8 (R230, R103). -/
  | clv
  /-- NOP implied, opcode 0xEA (R231, R103). -/
  | nop
  /-- BRK implied, opcode 0x00 (R232, R103). -/
  | brk
  /-- RTI implied, opcode 0x40 (R233, R103). -/
  | rti
deriving DecidableEq, Repr

end Sys2Proof
end

