-- ==== Sys2Proof/WellFormed.lean ====
section
/-! DEFINITION. Well-formed instructions. Every operand field is a bit vector of the width the spec
gives it, so the one thing left to check is the profile: the 20 instructions of the extension
profile exist only when `EXT_MODES` is true (00_scope.md R2; 30_encoding.md R113, R122). -/

namespace Sys2Proof

/-- Is the instruction one of the 20 of the extension profile (R122)? -/
def Instr.isExt : Instr → Bool
  | .ldaAbsy _ | .ldaIzy _ | .ldxZpy _ | .ldxAbsy _ | .staAbsy _ | .staIzy _ | .stxZpy _
  | .adcAbsy _ | .adcIzy _ | .sbcAbsy _ | .sbcIzy _ | .andAbsy _ | .andIzy _ | .oraAbsy _
  | .oraIzy _ | .eorAbsy _ | .eorIzy _ | .cmpAbsy _ | .cmpIzy _ | .jmpInd _ => true
  | .ldaImm _ | .ldaZp _ | .ldaZpx _ | .ldaAbs _ | .ldaAbsx _ | .ldaIzx _ | .ldxImm _ | .ldxZp _
  | .ldxAbs _ | .ldyImm _ | .ldyZp _ | .ldyZpx _ | .ldyAbs _ | .ldyAbsx _ | .staZp _ | .staZpx _
  | .staAbs _ | .staAbsx _ | .staIzx _ | .stxZp _ | .stxAbs _ | .styZp _ | .styZpx _ | .styAbs _
  | .tax | .tay | .txa | .tya | .tsx | .txs | .adcImm _ | .adcZp _ | .adcZpx _ | .adcAbs _
  | .adcAbsx _ | .adcIzx _ | .sbcImm _ | .sbcZp _ | .sbcZpx _ | .sbcAbs _ | .sbcAbsx _ | .sbcIzx _
  | .andImm _ | .andZp _ | .andZpx _ | .andAbs _ | .andAbsx _ | .andIzx _ | .oraImm _ | .oraZp _
  | .oraZpx _ | .oraAbs _ | .oraAbsx _ | .oraIzx _ | .eorImm _ | .eorZp _ | .eorZpx _ | .eorAbs _
  | .eorAbsx _ | .eorIzx _ | .cmpImm _ | .cmpZp _ | .cmpZpx _ | .cmpAbs _ | .cmpAbsx _ | .cmpIzx _
  | .cpxImm _ | .cpxZp _ | .cpxAbs _ | .cpyImm _ | .cpyZp _ | .cpyAbs _ | .bitZp _ | .bitAbs _
  | .incZp _ | .incZpx _ | .incAbs _ | .incAbsx _ | .decZp _ | .decZpx _ | .decAbs _ | .decAbsx _
  | .inx | .iny | .dex | .dey | .aslAcc | .aslZp _ | .aslZpx _ | .aslAbs _ | .aslAbsx _ | .lsrAcc
  | .lsrZp _ | .lsrZpx _ | .lsrAbs _ | .lsrAbsx _ | .rolAcc | .rolZp _ | .rolZpx _ | .rolAbs _
  | .rolAbsx _ | .rorAcc | .rorZp _ | .rorZpx _ | .rorAbs _ | .rorAbsx _ | .jmpAbs _ | .jsr _
  | .rts | .bpl _ | .bmi _ | .bvc _ | .bvs _ | .bcc _ | .bcs _ | .bne _ | .beq _ | .pha | .pla
  | .php | .plp | .clc | .sec | .cli | .sei | .cld | .sed | .clv | .nop | .brk | .rti => false

/-- The instruction exists in the profile that `EXT_MODES = e` selects (R2, R122). -/
abbrev WellFormed (e : Bool) (i : Instr) : Prop := i.isExt = true → e = true

end Sys2Proof
end

