-- ==== Sys2Proof/Decode.lean ====
section
/-! DEFINITION. The instruction decoder (30_encoding.md): the opcode table of R120, `Lookup`, the
decoder on any bytes, which rejects by name, and the encoder written from the same table. -/

namespace Sys2Proof

/-- The three instruction formats (R100) with the instruction each opcode byte makes of its operand
bytes: none, `b1`, or the 16-bit operand with `b2` as high and `b1` as low byte. -/
inductive Form where
  | f1 (i : Instr)
  | f2 (mk : Byte → Instr)
  | f3 (mk : Addr → Instr)

/-- The length of an instruction of the format in bytes (R100). -/
def Form.length : Form → Nat
  | .f1 _ => 1
  | .f2 _ => 2
  | .f3 _ => 3

/-- One row of the opcode table (R120): the opcode byte, whether the row is marked as an extension
row, and what it decodes to. -/
structure OpcodeRow where
  opcode : Byte
  ext : Bool
  form : Form

/-- Why bytes are no instruction: the opcode byte is `Unknown` (R121, R122), or the bytes end before
the instruction does. -/
inductive DecodeError where
  | unknown (opc : Byte)
  | truncated
deriving DecidableEq, Repr

/-- R120: the load, store and transfer rows (file 40), part 1. -/
def rowsLoadStore1 : List OpcodeRow :=
  [ ⟨0xA9#8, false, .f2 .ldaImm⟩,
    ⟨0xA5#8, false, .f2 .ldaZp⟩,
    ⟨0xB5#8, false, .f2 .ldaZpx⟩,
    ⟨0xAD#8, false, .f3 .ldaAbs⟩,
    ⟨0xBD#8, false, .f3 .ldaAbsx⟩,
    ⟨0xB9#8, true, .f3 .ldaAbsy⟩,
    ⟨0xA1#8, false, .f2 .ldaIzx⟩,
    ⟨0xB1#8, true, .f2 .ldaIzy⟩,
    ⟨0xA2#8, false, .f2 .ldxImm⟩,
    ⟨0xA6#8, false, .f2 .ldxZp⟩,
    ⟨0xB6#8, true, .f2 .ldxZpy⟩,
    ⟨0xAE#8, false, .f3 .ldxAbs⟩,
    ⟨0xBE#8, true, .f3 .ldxAbsy⟩,
    ⟨0xA0#8, false, .f2 .ldyImm⟩,
    ⟨0xA4#8, false, .f2 .ldyZp⟩,
    ⟨0xB4#8, false, .f2 .ldyZpx⟩,
    ⟨0xAC#8, false, .f3 .ldyAbs⟩,
    ⟨0xBC#8, false, .f3 .ldyAbsx⟩,
    ⟨0x85#8, false, .f2 .staZp⟩,
    ⟨0x95#8, false, .f2 .staZpx⟩,
    ⟨0x8D#8, false, .f3 .staAbs⟩,
    ⟨0x9D#8, false, .f3 .staAbsx⟩,
    ⟨0x99#8, true, .f3 .staAbsy⟩,
    ⟨0x81#8, false, .f2 .staIzx⟩ ]

/-- R120: the load, store and transfer rows (file 40), part 2. -/
def rowsLoadStore2 : List OpcodeRow :=
  [ ⟨0x91#8, true, .f2 .staIzy⟩,
    ⟨0x86#8, false, .f2 .stxZp⟩,
    ⟨0x96#8, true, .f2 .stxZpy⟩,
    ⟨0x8E#8, false, .f3 .stxAbs⟩,
    ⟨0x84#8, false, .f2 .styZp⟩,
    ⟨0x94#8, false, .f2 .styZpx⟩,
    ⟨0x8C#8, false, .f3 .styAbs⟩,
    ⟨0xAA#8, false, .f1 .tax⟩,
    ⟨0xA8#8, false, .f1 .tay⟩,
    ⟨0x8A#8, false, .f1 .txa⟩,
    ⟨0x98#8, false, .f1 .tya⟩,
    ⟨0xBA#8, false, .f1 .tsx⟩,
    ⟨0x9A#8, false, .f1 .txs⟩ ]

/-- R120: the arithmetic and logic rows (file 41), part 1. -/
def rowsArithmetic1 : List OpcodeRow :=
  [ ⟨0x69#8, false, .f2 .adcImm⟩,
    ⟨0x65#8, false, .f2 .adcZp⟩,
    ⟨0x75#8, false, .f2 .adcZpx⟩,
    ⟨0x6D#8, false, .f3 .adcAbs⟩,
    ⟨0x7D#8, false, .f3 .adcAbsx⟩,
    ⟨0x79#8, true, .f3 .adcAbsy⟩,
    ⟨0x61#8, false, .f2 .adcIzx⟩,
    ⟨0x71#8, true, .f2 .adcIzy⟩,
    ⟨0xE9#8, false, .f2 .sbcImm⟩,
    ⟨0xE5#8, false, .f2 .sbcZp⟩,
    ⟨0xF5#8, false, .f2 .sbcZpx⟩,
    ⟨0xED#8, false, .f3 .sbcAbs⟩,
    ⟨0xFD#8, false, .f3 .sbcAbsx⟩,
    ⟨0xF9#8, true, .f3 .sbcAbsy⟩,
    ⟨0xE1#8, false, .f2 .sbcIzx⟩,
    ⟨0xF1#8, true, .f2 .sbcIzy⟩,
    ⟨0x29#8, false, .f2 .andImm⟩,
    ⟨0x25#8, false, .f2 .andZp⟩,
    ⟨0x35#8, false, .f2 .andZpx⟩,
    ⟨0x2D#8, false, .f3 .andAbs⟩,
    ⟨0x3D#8, false, .f3 .andAbsx⟩,
    ⟨0x39#8, true, .f3 .andAbsy⟩,
    ⟨0x21#8, false, .f2 .andIzx⟩,
    ⟨0x31#8, true, .f2 .andIzy⟩ ]

/-- R120: the arithmetic and logic rows (file 41), part 2. -/
def rowsArithmetic2 : List OpcodeRow :=
  [ ⟨0x09#8, false, .f2 .oraImm⟩,
    ⟨0x05#8, false, .f2 .oraZp⟩,
    ⟨0x15#8, false, .f2 .oraZpx⟩,
    ⟨0x0D#8, false, .f3 .oraAbs⟩,
    ⟨0x1D#8, false, .f3 .oraAbsx⟩,
    ⟨0x19#8, true, .f3 .oraAbsy⟩,
    ⟨0x01#8, false, .f2 .oraIzx⟩,
    ⟨0x11#8, true, .f2 .oraIzy⟩,
    ⟨0x49#8, false, .f2 .eorImm⟩,
    ⟨0x45#8, false, .f2 .eorZp⟩,
    ⟨0x55#8, false, .f2 .eorZpx⟩,
    ⟨0x4D#8, false, .f3 .eorAbs⟩,
    ⟨0x5D#8, false, .f3 .eorAbsx⟩,
    ⟨0x59#8, true, .f3 .eorAbsy⟩,
    ⟨0x41#8, false, .f2 .eorIzx⟩,
    ⟨0x51#8, true, .f2 .eorIzy⟩,
    ⟨0xC9#8, false, .f2 .cmpImm⟩,
    ⟨0xC5#8, false, .f2 .cmpZp⟩,
    ⟨0xD5#8, false, .f2 .cmpZpx⟩,
    ⟨0xCD#8, false, .f3 .cmpAbs⟩,
    ⟨0xDD#8, false, .f3 .cmpAbsx⟩,
    ⟨0xD9#8, true, .f3 .cmpAbsy⟩,
    ⟨0xC1#8, false, .f2 .cmpIzx⟩,
    ⟨0xD1#8, true, .f2 .cmpIzy⟩ ]

/-- R120: the arithmetic and logic rows (file 41), part 3. -/
def rowsArithmetic3 : List OpcodeRow :=
  [ ⟨0xE0#8, false, .f2 .cpxImm⟩,
    ⟨0xE4#8, false, .f2 .cpxZp⟩,
    ⟨0xEC#8, false, .f3 .cpxAbs⟩,
    ⟨0xC0#8, false, .f2 .cpyImm⟩,
    ⟨0xC4#8, false, .f2 .cpyZp⟩,
    ⟨0xCC#8, false, .f3 .cpyAbs⟩,
    ⟨0x24#8, false, .f2 .bitZp⟩,
    ⟨0x2C#8, false, .f3 .bitAbs⟩,
    ⟨0xE6#8, false, .f2 .incZp⟩,
    ⟨0xF6#8, false, .f2 .incZpx⟩,
    ⟨0xEE#8, false, .f3 .incAbs⟩,
    ⟨0xFE#8, false, .f3 .incAbsx⟩,
    ⟨0xC6#8, false, .f2 .decZp⟩,
    ⟨0xD6#8, false, .f2 .decZpx⟩,
    ⟨0xCE#8, false, .f3 .decAbs⟩,
    ⟨0xDE#8, false, .f3 .decAbsx⟩,
    ⟨0xE8#8, false, .f1 .inx⟩,
    ⟨0xC8#8, false, .f1 .iny⟩,
    ⟨0xCA#8, false, .f1 .dex⟩,
    ⟨0x88#8, false, .f1 .dey⟩ ]

/-- R120: the shift and rotate rows (file 42). -/
def rowsShift : List OpcodeRow :=
  [ ⟨0x0A#8, false, .f1 .aslAcc⟩,
    ⟨0x06#8, false, .f2 .aslZp⟩,
    ⟨0x16#8, false, .f2 .aslZpx⟩,
    ⟨0x0E#8, false, .f3 .aslAbs⟩,
    ⟨0x1E#8, false, .f3 .aslAbsx⟩,
    ⟨0x4A#8, false, .f1 .lsrAcc⟩,
    ⟨0x46#8, false, .f2 .lsrZp⟩,
    ⟨0x56#8, false, .f2 .lsrZpx⟩,
    ⟨0x4E#8, false, .f3 .lsrAbs⟩,
    ⟨0x5E#8, false, .f3 .lsrAbsx⟩,
    ⟨0x2A#8, false, .f1 .rolAcc⟩,
    ⟨0x26#8, false, .f2 .rolZp⟩,
    ⟨0x36#8, false, .f2 .rolZpx⟩,
    ⟨0x2E#8, false, .f3 .rolAbs⟩,
    ⟨0x3E#8, false, .f3 .rolAbsx⟩,
    ⟨0x6A#8, false, .f1 .rorAcc⟩,
    ⟨0x66#8, false, .f2 .rorZp⟩,
    ⟨0x76#8, false, .f2 .rorZpx⟩,
    ⟨0x6E#8, false, .f3 .rorAbs⟩,
    ⟨0x7E#8, false, .f3 .rorAbsx⟩ ]

/-- R120: the control-flow rows (file 43). -/
def rowsControl : List OpcodeRow :=
  [ ⟨0x4C#8, false, .f3 .jmpAbs⟩,
    ⟨0x6C#8, true, .f3 .jmpInd⟩,
    ⟨0x20#8, false, .f3 .jsr⟩,
    ⟨0x60#8, false, .f1 .rts⟩,
    ⟨0x10#8, false, .f2 .bpl⟩,
    ⟨0x30#8, false, .f2 .bmi⟩,
    ⟨0x50#8, false, .f2 .bvc⟩,
    ⟨0x70#8, false, .f2 .bvs⟩,
    ⟨0x90#8, false, .f2 .bcc⟩,
    ⟨0xB0#8, false, .f2 .bcs⟩,
    ⟨0xD0#8, false, .f2 .bne⟩,
    ⟨0xF0#8, false, .f2 .beq⟩ ]

/-- R120: the stack, flag and system rows (file 44). -/
def rowsStackSystem : List OpcodeRow :=
  [ ⟨0x48#8, false, .f1 .pha⟩,
    ⟨0x68#8, false, .f1 .pla⟩,
    ⟨0x08#8, false, .f1 .php⟩,
    ⟨0x28#8, false, .f1 .plp⟩,
    ⟨0x18#8, false, .f1 .clc⟩,
    ⟨0x38#8, false, .f1 .sec⟩,
    ⟨0x58#8, false, .f1 .cli⟩,
    ⟨0x78#8, false, .f1 .sei⟩,
    ⟨0xD8#8, false, .f1 .cld⟩,
    ⟨0xF8#8, false, .f1 .sed⟩,
    ⟨0xB8#8, false, .f1 .clv⟩,
    ⟨0xEA#8, false, .f1 .nop⟩,
    ⟨0x00#8, false, .f1 .brk⟩,
    ⟨0x40#8, false, .f1 .rti⟩ ]

/-- R120: the whole opcode table, 151 rows. -/
def opcodeTable : List OpcodeRow :=
  rowsLoadStore1 ++ rowsLoadStore2 ++ rowsArithmetic1 ++ rowsArithmetic2 ++
    rowsArithmetic3 ++ rowsShift ++ rowsControl ++ rowsStackSystem

/-- `Lookup(opc)` with `EXT_MODES = e` (R120 to R122): the row's format, or `none` for `Unknown`. -/
def lookup (e : Bool) (opc : Byte) : Option Form :=
  match opcodeTable.find? (fun r => r.opcode == opc) with
  | none => none
  | some r => if r.ext && !e then none else some r.form

/-- The instruction at the head of the bytes, with the bytes after it (R100, R101, R124). Total: an
opcode byte that is `Unknown` and an instruction cut short are each rejected by name. -/
def decode (e : Bool) : List Byte → Except DecodeError (Instr × List Byte)
  | [] => .error .truncated
  | opc :: rest =>
    match lookup e opc, rest with
    | none, _ => .error (.unknown opc)
    | some (.f1 i), rest => .ok (i, rest)
    | some (.f2 mk), b1 :: rest => .ok (mk b1, rest)
    | some (.f3 mk), b1 :: b2 :: rest => .ok (mk (pair b2 b1), rest)
    | some _, _ => .error .truncated

/-- The opcode byte of each instruction (R120), for the encoder. -/
def Instr.opcode : Instr → Byte
  | .ldaImm _ => 0xA9#8
  | .ldaZp _ => 0xA5#8
  | .ldaZpx _ => 0xB5#8
  | .ldaAbs _ => 0xAD#8
  | .ldaAbsx _ => 0xBD#8
  | .ldaAbsy _ => 0xB9#8
  | .ldaIzx _ => 0xA1#8
  | .ldaIzy _ => 0xB1#8
  | .ldxImm _ => 0xA2#8
  | .ldxZp _ => 0xA6#8
  | .ldxZpy _ => 0xB6#8
  | .ldxAbs _ => 0xAE#8
  | .ldxAbsy _ => 0xBE#8
  | .ldyImm _ => 0xA0#8
  | .ldyZp _ => 0xA4#8
  | .ldyZpx _ => 0xB4#8
  | .ldyAbs _ => 0xAC#8
  | .ldyAbsx _ => 0xBC#8
  | .staZp _ => 0x85#8
  | .staZpx _ => 0x95#8
  | .staAbs _ => 0x8D#8
  | .staAbsx _ => 0x9D#8
  | .staAbsy _ => 0x99#8
  | .staIzx _ => 0x81#8
  | .staIzy _ => 0x91#8
  | .stxZp _ => 0x86#8
  | .stxZpy _ => 0x96#8
  | .stxAbs _ => 0x8E#8
  | .styZp _ => 0x84#8
  | .styZpx _ => 0x94#8
  | .styAbs _ => 0x8C#8
  | .tax => 0xAA#8
  | .tay => 0xA8#8
  | .txa => 0x8A#8
  | .tya => 0x98#8
  | .tsx => 0xBA#8
  | .txs => 0x9A#8
  | .adcImm _ => 0x69#8
  | .adcZp _ => 0x65#8
  | .adcZpx _ => 0x75#8
  | .adcAbs _ => 0x6D#8
  | .adcAbsx _ => 0x7D#8
  | .adcAbsy _ => 0x79#8
  | .adcIzx _ => 0x61#8
  | .adcIzy _ => 0x71#8
  | .sbcImm _ => 0xE9#8
  | .sbcZp _ => 0xE5#8
  | .sbcZpx _ => 0xF5#8
  | .sbcAbs _ => 0xED#8
  | .sbcAbsx _ => 0xFD#8
  | .sbcAbsy _ => 0xF9#8
  | .sbcIzx _ => 0xE1#8
  | .sbcIzy _ => 0xF1#8
  | .andImm _ => 0x29#8
  | .andZp _ => 0x25#8
  | .andZpx _ => 0x35#8
  | .andAbs _ => 0x2D#8
  | .andAbsx _ => 0x3D#8
  | .andAbsy _ => 0x39#8
  | .andIzx _ => 0x21#8
  | .andIzy _ => 0x31#8
  | .oraImm _ => 0x09#8
  | .oraZp _ => 0x05#8
  | .oraZpx _ => 0x15#8
  | .oraAbs _ => 0x0D#8
  | .oraAbsx _ => 0x1D#8
  | .oraAbsy _ => 0x19#8
  | .oraIzx _ => 0x01#8
  | .oraIzy _ => 0x11#8
  | .eorImm _ => 0x49#8
  | .eorZp _ => 0x45#8
  | .eorZpx _ => 0x55#8
  | .eorAbs _ => 0x4D#8
  | .eorAbsx _ => 0x5D#8
  | .eorAbsy _ => 0x59#8
  | .eorIzx _ => 0x41#8
  | .eorIzy _ => 0x51#8
  | .cmpImm _ => 0xC9#8
  | .cmpZp _ => 0xC5#8
  | .cmpZpx _ => 0xD5#8
  | .cmpAbs _ => 0xCD#8
  | .cmpAbsx _ => 0xDD#8
  | .cmpAbsy _ => 0xD9#8
  | .cmpIzx _ => 0xC1#8
  | .cmpIzy _ => 0xD1#8
  | .cpxImm _ => 0xE0#8
  | .cpxZp _ => 0xE4#8
  | .cpxAbs _ => 0xEC#8
  | .cpyImm _ => 0xC0#8
  | .cpyZp _ => 0xC4#8
  | .cpyAbs _ => 0xCC#8
  | .bitZp _ => 0x24#8
  | .bitAbs _ => 0x2C#8
  | .incZp _ => 0xE6#8
  | .incZpx _ => 0xF6#8
  | .incAbs _ => 0xEE#8
  | .incAbsx _ => 0xFE#8
  | .decZp _ => 0xC6#8
  | .decZpx _ => 0xD6#8
  | .decAbs _ => 0xCE#8
  | .decAbsx _ => 0xDE#8
  | .inx => 0xE8#8
  | .iny => 0xC8#8
  | .dex => 0xCA#8
  | .dey => 0x88#8
  | .aslAcc => 0x0A#8
  | .aslZp _ => 0x06#8
  | .aslZpx _ => 0x16#8
  | .aslAbs _ => 0x0E#8
  | .aslAbsx _ => 0x1E#8
  | .lsrAcc => 0x4A#8
  | .lsrZp _ => 0x46#8
  | .lsrZpx _ => 0x56#8
  | .lsrAbs _ => 0x4E#8
  | .lsrAbsx _ => 0x5E#8
  | .rolAcc => 0x2A#8
  | .rolZp _ => 0x26#8
  | .rolZpx _ => 0x36#8
  | .rolAbs _ => 0x2E#8
  | .rolAbsx _ => 0x3E#8
  | .rorAcc => 0x6A#8
  | .rorZp _ => 0x66#8
  | .rorZpx _ => 0x76#8
  | .rorAbs _ => 0x6E#8
  | .rorAbsx _ => 0x7E#8
  | .jmpAbs _ => 0x4C#8
  | .jmpInd _ => 0x6C#8
  | .jsr _ => 0x20#8
  | .rts => 0x60#8
  | .bpl _ => 0x10#8
  | .bmi _ => 0x30#8
  | .bvc _ => 0x50#8
  | .bvs _ => 0x70#8
  | .bcc _ => 0x90#8
  | .bcs _ => 0xB0#8
  | .bne _ => 0xD0#8
  | .beq _ => 0xF0#8
  | .pha => 0x48#8
  | .pla => 0x68#8
  | .php => 0x08#8
  | .plp => 0x28#8
  | .clc => 0x18#8
  | .sec => 0x38#8
  | .cli => 0x58#8
  | .sei => 0x78#8
  | .cld => 0xD8#8
  | .sed => 0xF8#8
  | .clv => 0xB8#8
  | .nop => 0xEA#8
  | .brk => 0x00#8
  | .rti => 0x40#8

/-- The operand bytes of each instruction in ascending address order (R100, R102). -/
def Instr.operandBytes : Instr → List Byte
  | .tax | .tay | .txa | .tya | .tsx | .txs | .inx | .iny | .dex | .dey | .aslAcc | .lsrAcc
  | .rolAcc | .rorAcc | .rts | .pha | .pla | .php | .plp | .clc | .sec | .cli | .sei | .cld | .sed
  | .clv | .nop | .brk | .rti => []
  | .ldaImm b | .ldaZp b | .ldaZpx b | .ldaIzx b | .ldaIzy b | .ldxImm b | .ldxZp b | .ldxZpy b
  | .ldyImm b | .ldyZp b | .ldyZpx b | .staZp b | .staZpx b | .staIzx b | .staIzy b | .stxZp b
  | .stxZpy b | .styZp b | .styZpx b | .adcImm b | .adcZp b | .adcZpx b | .adcIzx b | .adcIzy b
  | .sbcImm b | .sbcZp b | .sbcZpx b | .sbcIzx b | .sbcIzy b | .andImm b | .andZp b | .andZpx b
  | .andIzx b | .andIzy b | .oraImm b | .oraZp b | .oraZpx b | .oraIzx b | .oraIzy b | .eorImm b
  | .eorZp b | .eorZpx b | .eorIzx b | .eorIzy b | .cmpImm b | .cmpZp b | .cmpZpx b | .cmpIzx b
  | .cmpIzy b | .cpxImm b | .cpxZp b | .cpyImm b | .cpyZp b | .bitZp b | .incZp b | .incZpx b
  | .decZp b | .decZpx b | .aslZp b | .aslZpx b | .lsrZp b | .lsrZpx b | .rolZp b | .rolZpx b
  | .rorZp b | .rorZpx b | .bpl b | .bmi b | .bvc b | .bvs b | .bcc b | .bcs b | .bne b | .beq b => [b]
  | .ldaAbs a | .ldaAbsx a | .ldaAbsy a | .ldxAbs a | .ldxAbsy a | .ldyAbs a | .ldyAbsx a
  | .staAbs a | .staAbsx a | .staAbsy a | .stxAbs a | .styAbs a | .adcAbs a | .adcAbsx a
  | .adcAbsy a | .sbcAbs a | .sbcAbsx a | .sbcAbsy a | .andAbs a | .andAbsx a | .andAbsy a
  | .oraAbs a | .oraAbsx a | .oraAbsy a | .eorAbs a | .eorAbsx a | .eorAbsy a | .cmpAbs a
  | .cmpAbsx a | .cmpAbsy a | .cpxAbs a | .cpyAbs a | .bitAbs a | .incAbs a | .incAbsx a
  | .decAbs a | .decAbsx a | .aslAbs a | .aslAbsx a | .lsrAbs a | .lsrAbsx a | .rolAbs a
  | .rolAbsx a | .rorAbs a | .rorAbsx a | .jmpAbs a | .jmpInd a | .jsr a => [loByte a, hiByte a]

/-- The bytes of an instruction: its opcode, then its operand bytes (R100). -/
def encode (i : Instr) : List Byte := i.opcode :: i.operandBytes

/-- Byte `k` of a number whose bits are numbered as spec/opcode_table.json numbers them: byte 0 holds
bits 7 to 0, the next byte bits 15 to 8, and so on. -/
def tableByte (nbits w k : Nat) : Byte := BitVec.ofNat 8 (w % 2 ^ nbits / 256 ^ k)

/-- The three bytes of a table word as they lie in memory, the first at the lowest address; every bit
at or above `nbits` is 0. -/
def tableBytes (nbits w : Nat) : List Byte := [tableByte nbits w 0, tableByte nbits w 1, tableByte nbits w 2]

/-- What the decoder reads from an instruction whose bits are `w`, numbered as the table numbers them.
The table holds the rows of both profiles, so it is read with `EXT_MODES = true` (log entry 4). -/
def decodeTableWord (nbits w : Nat) : Option Instr :=
  match decode true (tableBytes nbits w) with
  | .ok (i, _) => some i
  | .error _ => none

end Sys2Proof
end

