-- ==== Sys2Proof/Config.lean ====
section
/-! DEFINITION. The constants of the hardware (00_scope.md R7) and its one free value, the draw
(47_ppu_timing_engine.md R265). -/

namespace Sys2Proof

/-- `RAM_SIZE` (R7, R25). -/
abbrev Config.ramSize : Nat := 2048

/-- `VRAM_SIZE` (R7, R35). -/
abbrev Config.vramSize : Nat := 16384

/-- `OAM_SIZE` (R7, R34, conflict C2). -/
abbrev Config.oamSize : Nat := 256

/-- `OAM_DMA_LEN` (R7, R274). -/
abbrev Config.oamDmaLen : Nat := 255

/-- `DOTS_PER_LINE` (R7, R260, conflict C3). -/
abbrev Config.dotsPerLine : Nat := 340

/-- `LINES_PER_FRAME` (R7, R260). -/
abbrev Config.linesPerFrame : Nat := 261

/-- `VBLANK_LINE` (R7, R260). -/
abbrev Config.vblankLine : Nat := 241

/-- `NMI_DOT` (R7, R263). -/
abbrev Config.nmiDot : Nat := 1

/-- `PPU_WARMUP`, compared with strict `>` (R7, R263). -/
abbrev Config.ppuWarmup : Nat := 29658

/-- `NMI_VECTOR`, the address of the low byte (R7, R330). -/
abbrev Config.nmiVector : Addr := 0xFFFA#16

/-- `RESET_VECTOR`, the address of the low byte (R7, R330). -/
abbrev Config.resetVector : Addr := 0xFFFC#16

/-- `IRQ_BRK_VECTOR`, the address of the low byte (R7, R330). -/
abbrev Config.irqBrkVector : Addr := 0xFFFE#16

/-- One PRG bank, 16 KiB: the unit of PRG sizes and of the mapper windows (R26, R61, R62). -/
abbrev Config.prgBank : Nat := 16384

/-- One CHR unit, 8 KiB (R26, R65). -/
abbrev Config.chrUnit : Nat := 8192

/-- DESIGN CHOICE (log entry 3), safe. The `n`-th draw `u8` of a run: the byte that a CPU read of a
write-only PPU port returns (R265; 93_implementation_defined.md section 4). It has no body, so every
theorem holds for every sequence of draws. -/
opaque Config.freeByte : Nat → Byte

end Sys2Proof
end

