-- ==== Sys2Proof/Machine/State.lean ====
section
/-! DEFINITION. The state of the machine as plain data (10_state.md), the faults and refusals a step
can end in (60_exceptions.md), and the state after reset (R38, R360, R361). -/

namespace Sys2Proof.Machine

/-- One of the machine's byte arrays (RAM, VRAM, OAM, PRG ROM, CHR ROM) as address and byte pairs. In
canonical form (`Memory.wf`) the addresses rise strictly and no pair lists the byte that an unlisted
address reads as. -/
abbrev Memory := List Host.Cell

/-- The faults that end a CPU step (R320, R322, R323). Both are fatal: no agent steps again (R324). -/
inductive Fault where
  /-- `BusFault(addr)`: a bus access has no mapping (R57, R58, R322). Raised by `memRead` and
  `memWrite` for an instruction fetch, a data access, a pointer read of JMP indirect, or the source
  reads of `oamDma`. Safe: the hardware halts here too. -/
  | busFault (addr : Addr)
  /-- `UnimplementedInstruction(opc)`: the opcode byte decodes to `Unknown` (R121, R122, R323). Raised
  by `fetch` after the opcode read and before any other access. Safe: the hardware halts here too. -/
  | unimplementedInstruction (opc : Byte)
deriving DecidableEq, Repr

/-- The reasons why there is no next state and no fault of a step: a refused launch (R70, R321) or a
run ended by the host (R304). -/
inductive Refusal where
  /-- Raised by an arm of `exec` for an instruction without a meaning. No arm of this model raises it.
  Safe: the machine goes no further. -/
  | notModelled (mnemonic : String)
  /-- `FormatError`: raised by `parse` in `launch` for a cartridge image that is too short or fails
  the preconditions (R68, R69). Safe: the hardware has no launch state either. -/
  | formatError
  /-- `UnsupportedMapperError`: raised by `insertImage` in `launch` for a mapper number other than 0
  and 1 (R64, R70). Safe: the hardware has no launch state either. -/
  | unsupportedMapper (id : Byte)
  /-- The run has ended with outcome `Stopped`: raised by `step` when the host's stop request is seen
  at the top of an iteration (R304, R308). Safe: the hardware runs no further iteration either. -/
  | stopped
deriving DecidableEq, Repr

/-- The mapper policies of a launched machine: numbers 0 and 1 and no other (R61, R62, R70). -/
inductive Mapper where
  | mapper0
  | mapper1
deriving DecidableEq, Repr

/-- The header fields of the cartridge image (R26, R65). Nothing in scope reads them once the
cartridge is loaded. -/
structure Header where
  prgCount : Byte
  chrCount : Byte
  flags6 : Byte
  flags7 : Byte
  prgRamCount : Byte
  flags9 : Byte
  flags10 : Byte
deriving DecidableEq, Repr

/-- The loaded cartridge, immutable while the machine runs (R26, R67). `prgLen` is `PRG_LEN`, the
length of the PRG buffer after mirroring. -/
structure Cartridge where
  header : Header
  mapper : Mapper
  prg : Memory
  prgLen : Nat
  chr : Memory
  chrLen : Nat
deriving DecidableEq, Repr

/-- The state of the PPU (R27 to R37). `w = false` is the toggle value 0: the next write to the scroll
or address port is the first of a pair (R31). -/
structure Ppu where
  ctrl : Byte
  mask : Byte
  status : Byte
  w : Bool
  v : Addr
  scrollX : Byte
  scrollY : Byte
  oamAddr : Byte
  oam : Memory
  vram : Memory
  cycle : Nat
  x : Nat
  y : Nat
deriving DecidableEq, Repr

/-- The whole machine between two coordinator iterations: the CPU registers (R10 to R16), the RAM
(R25), the cartridge (R26), the PPU (R27), the coordinator's latches (R22 to R24), the two launch
parameters that the step reads (R7, log entry 4), and the model's own count of draws (log entry 3). -/
structure State where
  a : Byte
  x : Byte
  y : Byte
  sp : Byte
  pc : Addr
  p : Byte
  ram : Memory
  cart : Cartridge
  ppu : Ppu
  nmiPending : Bool
  halted : Option Fault
  stopRequested : Bool
  extModes : Bool
  statusReadClearsW : Bool
  draws : Nat
deriving DecidableEq, Repr

/-- What one step, one instruction or one host action answers. -/
abbrev Outcome := Host.Outcome State Fault Refusal

/-- The PPU at power-on: every register, counter and latch 0 (R38, R360). The two arrays list nothing
(log entry 2). -/
def Ppu.powerOn : Ppu :=
  { ctrl := 0, mask := 0, status := 0, w := false, v := 0, scrollX := 0, scrollY := 0, oamAddr := 0
    oam := [], vram := [], cycle := 0, x := 0, y := 0 }

/-- DESIGN CHOICE (log entry 1), unsafe. The cartridge of `State.reset`: mapper 0, one 16 KiB PRG bank
mirrored to 32 KiB with every byte 0, no CHR. -/
def Cartridge.blank : Cartridge :=
  { header := { prgCount := 1, chrCount := 0, flags6 := 0, flags7 := 0, prgRamCount := 0, flags9 := 0
                flags10 := 0 }
    mapper := .mapper0, prg := [], prgLen := 32768, chr := [], chrLen := 0 }

/-- The machine right after reset (R38, R360, R361): the CPU registers 0, `P = 0x24`, the PPU and the
latches 0, and `PC = Read16(0xFFFC)`, which is 0x0000 on the blank cartridge (log entry 1). The arrays
whose contents the spec leaves open list nothing (log entry 2), the two OPEN Booleans have the spec's
defaults (R7), and no draw has been made (log entry 3). -/
def State.reset : State :=
  { a := 0, x := 0, y := 0, sp := 0, pc := 0, p := 0x24
    ram := [], cart := Cartridge.blank, ppu := Ppu.powerOn
    nmiPending := false, halted := none, stopRequested := false
    extModes := false, statusReadClearsW := false, draws := 0 }

end Sys2Proof.Machine
end

