-- ==== Sys2Proof/Machine/Flags.lean ====
section
/-! DEFINITION. The status register `P` (10_state.md R16) and every flag computation of the spec: Z and
N of a result, carry and overflow of ADC and SBC, the compares, BIT, the shifts and rotates, and the
merge of PLP and RTI. All act on the byte `P` and on operand bytes alone. -/

namespace Sys2Proof.Machine

/-- The eight flags of `P` (R16). -/
inductive Flag where
  | C | Z | I | D | B | U | V | N
deriving DecidableEq, Repr

/-- The bit of `P` that holds a flag (R16). -/
def Flag.bit : Flag → Nat
  | .C => 0
  | .Z => 1
  | .I => 2
  | .D => 3
  | .B => 4
  | .U => 5
  | .V => 6
  | .N => 7

/-- The mask of a flag in `P` (R16). -/
def Flag.mask (f : Flag) : Byte := 1#8 <<< f.bit

/-- The value of a flag of `P`. -/
def getFlag (f : Flag) (p : Byte) : Bool := p.getLsbD f.bit

/-- `P` with one flag written and every other bit kept. -/
def setFlag (f : Flag) (b : Bool) (p : Byte) : Byte := if b then p ||| f.mask else p &&& ~~~f.mask

/-- `SetZN(v)` (R9). -/
def setZN (v p : Byte) : Byte := setFlag .N v.msb (setFlag .Z (v == 0) p)

/-- What the ADC path gives: the 8-bit result, the carry and the signed overflow (R160). -/
structure Sum where
  result : Byte
  carry : Bool
  overflow : Bool
deriving DecidableEq, Repr

/-- `A + M + C` as the 9-bit sum of R160. -/
def addWithCarry (a m : Byte) (c : Bool) : Sum :=
  let sum := a.toNat + m.toNat + c.toNat
  let r : Byte := BitVec.ofNat 8 sum
  { result := r
    carry := sum.testBit 8
    overflow := ((a ^^^ r) &&& (m ^^^ r) &&& 0x80#8) != 0 }

/-- `P` after ADC or SBC with the given sum: C, V, then Z and N of the result (R160, R161). -/
def sumFlags (s : Sum) (p : Byte) : Byte := setZN s.result (setFlag .V s.overflow (setFlag .C s.carry p))

/-- ADC on bytes (R160): the sum with the carry in `P`, whatever `P.D` holds (decision D3). -/
def adcSum (a m p : Byte) : Sum := addWithCarry a m (getFlag .C p)

/-- SBC on bytes (R161): the ADC path with the operand complemented. -/
def sbcSum (a m p : Byte) : Sum := addWithCarry a (m ^^^ 0xFF#8) (getFlag .C p)

/-- `P` after CMP, CPX or CPY of register value `r` with operand `m` (R165 to R167). -/
def compareFlags (r m p : Byte) : Byte := setZN (r - m) (setFlag .C (decide (m.toNat ≤ r.toNat)) p)

/-- `P` after BIT of accumulator `a` with operand `m` (R168). -/
def bitFlags (a m p : Byte) : Byte :=
  setFlag .V (m.getLsbD 6) (setFlag .N (m.getLsbD 7) (setFlag .Z ((a &&& m) == 0) p))

/-- ASL on a byte (R191): the result, and `P` with C, Z and N written. -/
def aslByte (v p : Byte) : Byte × Byte :=
  let r := v <<< 1
  (r, setZN r (setFlag .C (v.getLsbD 7) p))

/-- LSR on a byte (R192). -/
def lsrByte (v p : Byte) : Byte × Byte :=
  let r := v >>> 1
  (r, setZN r (setFlag .C (v.getLsbD 0) p))

/-- ROL on a byte (R193): the old carry enters bit 0. -/
def rolByte (v p : Byte) : Byte × Byte :=
  let r := (v <<< 1) ||| (BitVec.ofBool (getFlag .C p)).setWidth 8
  (r, setZN r (setFlag .C (v.getLsbD 7) p))

/-- ROR on a byte (R194): the old carry enters bit 7. -/
def rorByte (v p : Byte) : Byte × Byte :=
  let r := (v >>> 1) ||| ((BitVec.ofBool (getFlag .C p)).setWidth 8 <<< 7)
  (r, setZN r (setFlag .C (v.getLsbD 0) p))

/-- INC on a byte (R169). -/
def incByte (v p : Byte) : Byte × Byte := (v + 1, setZN (v + 1) p)

/-- DEC on a byte (R170). -/
def decByte (v p : Byte) : Byte × Byte := (v - 1, setZN (v - 1) p)

/-- `P` after PLP or RTI pulls the byte `v`: bits 4 and 5 keep their stored values (R223, R233). -/
def pulledFlags (v p : Byte) : Byte := (v &&& 0xCF#8) ||| (p &&& 0x30#8)

end Sys2Proof.Machine
end

