-- ==== Sys2Proof/Machine/Memory.lean ====
section
/-! DEFINITION. Reading and writing one byte of a byte array, and the canonical form that equal arrays
share. Every wider access and every region of the bus is built from these. -/

namespace Sys2Proof.Machine

/-- DESIGN CHOICE (log entry 2), unsafe. The byte an unlisted address reads as. -/
def Memory.unlisted : Byte := 0

/-- The byte at index `i`. -/
def Memory.read : Memory → Nat → Byte
  | [], _ => Memory.unlisted
  | c :: m, i => if c.1 = i then c.2 else Memory.read m i

/-- Adds a pair before the first pair with a higher address. -/
def Memory.insert : Memory → Nat → Byte → Memory
  | [], i, v => [(i, v)]
  | c :: m, i, v => if i < c.1 then (i, v) :: c :: m else c :: Memory.insert m i v

/-- The array without any pair for index `i`. -/
def Memory.erase (m : Memory) (i : Nat) : Memory := m.filter (fun c => c.1 != i)

/-- The array with the byte `v` at index `i`; a byte equal to what an unlisted address reads as is not
listed. -/
def Memory.write (m : Memory) (i : Nat) (v : Byte) : Memory :=
  if v = Memory.unlisted then Memory.erase m i else Memory.insert (Memory.erase m i) i v

/-- The array that holds the given bytes at the indexes `i`, `i + 1`, and so on. -/
def Memory.ofBytesFrom : Nat → List Byte → Memory
  | _, [] => []
  | i, b :: bs =>
    if b = Memory.unlisted then Memory.ofBytesFrom (i + 1) bs else (i, b) :: Memory.ofBytesFrom (i + 1) bs

/-- The array that holds the given bytes from index 0 on. -/
def Memory.ofBytes (bs : List Byte) : Memory := Memory.ofBytesFrom 0 bs

/-- The canonical form: addresses strictly rising, and no pair lists the byte an unlisted address reads
as. -/
abbrev Memory.wf (m : Memory) : Prop :=
  m.Pairwise (fun c d => c.1 < d.1) ∧ ∀ c ∈ m, c.2 ≠ Memory.unlisted

/-- Every listed index lies below `n`. -/
abbrev Memory.within (n : Nat) (m : Memory) : Prop := ∀ c ∈ m, c.1 < n

end Sys2Proof.Machine
end

