-- ==== Sys2Proof/Machine/Ppu.lean ====
section
/-! DEFINITION. The PPU timing engine (47_ppu_timing_engine.md): the tick with its counters, vblank bit
and NMI condition, and the eight register ports as the CPU bus reaches them. -/

namespace Sys2Proof.Machine

/-- The eight register ports (R264). -/
inductive Port where
  | control | mask | status | oamAddress | oamData | scroll | address | data
deriving DecidableEq, Repr

/-- Port `addr mod 8` (R54, R264). -/
def portOf (addr : Addr) : Port :=
  match addr.toNat % 8 with
  | 0 => .control
  | 1 => .mask
  | 2 => .status
  | 3 => .oamAddress
  | 4 => .oamData
  | 5 => .scroll
  | 6 => .address
  | _ => .data

/-- `Inc()`: the auto-increment of the VRAM address (R272). -/
def vramInc (q : Ppu) : Addr := if q.ctrl.getLsbD 2 then 32 else 1

/-- The VRAM index the latch selects (R32, R271). -/
def vramIndex (q : Ppu) : Nat := q.v.toNat % Config.vramSize

/-- `PpuPortRead` on the two ports whose read can change the PPU, and on the two that only look: the
PPU after a read of the port (R267, R268, R271). -/
def portReadEffect (clearsW : Bool) (q : Ppu) : Port → Ppu
  | .status => if clearsW then { q with w := false } else q
  | .data => { q with v := q.v + vramInc q }
  | .control => q
  | .mask => q
  | .oamAddress => q
  | .oamData => q
  | .scroll => q
  | .address => q

/-- `PpuPortRead(n)` (R265): the byte and the state after the read. The write-only ports give a draw,
and each draw is a fresh free value (log entry 3). -/
def portRead (n : Port) (s : State) : Byte × State :=
  let after := { s with ppu := portReadEffect s.statusReadClearsW s.ppu n }
  match n with
  | .status => (s.ppu.status, after)
  | .oamData => (s.ppu.oam.read s.ppu.oamAddr.toNat, after)
  | .data => (s.ppu.vram.read (vramIndex s.ppu), after)
  | .control => (Config.freeByte s.draws, { after with draws := s.draws + 1 })
  | .mask => (Config.freeByte s.draws, { after with draws := s.draws + 1 })
  | .oamAddress => (Config.freeByte s.draws, { after with draws := s.draws + 1 })
  | .scroll => (Config.freeByte s.draws, { after with draws := s.draws + 1 })
  | .address => (Config.freeByte s.draws, { after with draws := s.draws + 1 })

/-- `PpuPortWrite(n, v)` (R266): the PPU after the CPU writes `v` to the port. -/
def portWrite (n : Port) (v : Byte) (q : Ppu) : Ppu :=
  match n with
  | .control => { q with ctrl := v }
  | .mask => { q with mask := v }
  | .status => q
  | .oamAddress => { q with oamAddr := v }
  | .oamData => { q with oam := q.oam.write q.oamAddr.toNat v, oamAddr := q.oamAddr + 1 }
  | .scroll => if q.w then { q with scrollY := v, w := false } else { q with scrollX := v, w := true }
  | .address =>
    if q.w then { q with v := pair (hiByte q.v) v, w := false }
    else { q with v := pair v (loByte q.v), w := true }
  | .data => { q with vram := q.vram.write (vramIndex q) v, v := q.v + vramInc q }

/-- The end of a scanline (R260): `x` back to 0, `y` one on and back to 0 after the last line; vblank is
cleared as `y` becomes 0 and set as `y` becomes 241. -/
def nextLine (q : Ppu) : Ppu :=
  let y' := if q.y + 1 = Config.linesPerFrame then 0 else q.y + 1
  let cleared := if q.y + 1 = Config.linesPerFrame then q.status &&& 0x7F#8 else q.status
  { q with
    x := 0
    y := y'
    status := if y' = Config.vblankLine then cleared ||| 0x80#8 else cleared }

/-- One dot, without the interrupt line (R260). -/
def advanceDot (q : Ppu) : Ppu :=
  if q.x + 1 = Config.dotsPerLine then nextLine { q with cycle := q.cycle + 1 }
  else { q with cycle := q.cycle + 1, x := q.x + 1 }

/-- `NmiCondition()` (R263). -/
def nmiCondition (q : Ppu) : Bool :=
  q.y == Config.vblankLine && q.x == Config.nmiDot && q.ctrl.getLsbD 7
    && decide (Config.ppuWarmup < q.cycle)

/-- `Tick()` (R260): one dot, then the NMI condition on the new counters sets the latch. -/
def tick (s : State) : State :=
  let q := advanceDot s.ppu
  { s with ppu := q, nmiPending := s.nmiPending || nmiCondition q }

end Sys2Proof.Machine
end

