-- ==== Sys2Proof/Machine/Ops.lean ====
section
/-! DEFINITION. The named operations of the machine: register updates, the memory bus with the mapper
(20_memory.md), the stack (00_scope.md R9), taking an interrupt and returning from one
(60_exceptions.md), and `reset()` (70_reset_and_hazards.md R361). -/

namespace Sys2Proof.Machine

/-- A part of a CPU step, or of `oamDma`, that yields a value: the value and the state after it, or the
fault it raises and the state then, in which every earlier access has been performed (R322). -/
inductive Res (α : Type) where
  | ok (v : α) (s : State)
  | fault (f : Fault) (s : State)

/-- Goes on with the value and the state, or stops with the fault: no statement after a `raise` runs
(R9). -/
def Res.bind {α β : Type} (r : Res α) (k : α → State → Res β) : Res β :=
  match r with
  | .ok v s => k v s
  | .fault f s => .fault f s

/-- The same, where what follows ends the instruction. An outcome carries the fault without the state. -/
def Res.andThen {α : Type} (r : Res α) (k : α → State → Outcome) : Outcome :=
  match r with
  | .ok v s => k v s
  | .fault f _ => .fault f

/-- The state with `A` written (R11). -/
def State.setA (s : State) (v : Byte) : State := { s with a := v }
/-- The state with `X` written (R12). -/
def State.setX (s : State) (v : Byte) : State := { s with x := v }
/-- The state with `Y` written (R13). -/
def State.setY (s : State) (v : Byte) : State := { s with y := v }
/-- The state with `SP` written (R14). -/
def State.setSp (s : State) (v : Byte) : State := { s with sp := v }
/-- The state with `PC` written (R15). -/
def State.setPc (s : State) (v : Addr) : State := { s with pc := v }
/-- The state with `P` written (R16). -/
def State.setP (s : State) (v : Byte) : State := { s with p := v }
/-- The state with the RAM array replaced (R25). -/
def State.setRam (s : State) (m : Memory) : State := { s with ram := m }
/-- The state with the PPU replaced (R27). -/
def State.setPpu (s : State) (q : Ppu) : State := { s with ppu := q }
/-- The state with the NMI latch written (R22). -/
def State.setNmi (s : State) (b : Bool) : State := { s with nmiPending := b }
/-- The state with `halted` written (R23). -/
def State.setHalted (s : State) (h : Option Fault) : State := { s with halted := h }
/-- The state with the stop request written (R24). -/
def State.setStop (s : State) (b : Bool) : State := { s with stopRequested := b }

/-- What a CPU bus address reaches (R51, R52, R59). -/
inductive Region where
  | ram
  | ports
  | sink
  | cartridge
  | unmapped
deriving DecidableEq, Repr

/-- The address map (R59): RAM, PPU ports, the write sink 0x4017, the cartridge window, and the rest. -/
def regionOf (addr : Addr) : Region :=
  if addr.toNat < 0x2000 then .ram
  else if addr.toNat < 0x4000 then .ports
  else if 0x8000 ≤ addr.toNat then .cartridge
  else if addr = 0x4017#16 then .sink
  else .unmapped

/-- The RAM index a bus address of the RAM window reaches (R53). -/
def ramIndex (addr : Addr) : Nat := addr.toNat % Config.ramSize

/-- `Translate(mapper_id, addr)` for an address of the cartridge window (R60 to R62). -/
def translate (m : Mapper) (prgLen : Nat) (addr : Addr) : Nat :=
  match m with
  | .mapper0 =>
    if addr.toNat < 0xC000 then addr.toNat - 0x8000
    else (prgLen - Config.prgBank) + (addr.toNat - 0xC000)
  | .mapper1 => (addr.toNat - 0x8000) % Config.prgBank

/-- The PRG byte that the cartridge window shows at an address (R56). -/
def romByte (c : Cartridge) (addr : Addr) : Byte := c.prg.read (translate c.mapper c.prgLen addr)

/-- `MemRead(addr, 1)` (R51). A read of 0x4017 faults like its neighbours. A faulting read is not performed
(R322). -/
def memRead (addr : Addr) (s : State) : Res Byte :=
  match regionOf addr with
  | .ram => .ok (s.ram.read (ramIndex addr)) s
  | .ports => .ok (portRead (portOf addr) s).1 (portRead (portOf addr) s).2
  | .cartridge => .ok (romByte s.cart addr) s
  | .sink => .fault (.busFault addr) s
  | .unmapped => .fault (.busFault addr) s

/-- `MemWrite(addr, 1, v)` (R52): a write to 0x4017 is accepted and discarded (R55), a write to the
cartridge window faults (R58). -/
def memWrite (addr : Addr) (v : Byte) (s : State) : Outcome :=
  match regionOf addr with
  | .ram => .next (s.setRam (s.ram.write (ramIndex addr) v))
  | .ports => .next (s.setPpu (portWrite (portOf addr) v s.ppu))
  | .sink => .next s
  | .cartridge => .fault (.busFault addr)
  | .unmapped => .fault (.busFault addr)

/-- `Read16ZP(p)` (R9): a pointer in page zero, low byte first, the high byte from page zero again when
`p = 0xFF`. Both bytes lie in RAM, so the two reads neither fault nor have a side effect (R53). -/
def read16Zp (b : Byte) (s : State) : Addr :=
  pair (s.ram.read (ramIndex (zext16 (b + 1)))) (s.ram.read (ramIndex (zext16 b)))

/-- `Read16(a)` of a vector (R9, R330). Both bytes lie in the cartridge window, so the two reads neither
fault nor have a side effect (R56, R57). -/
def readVector (vec : Addr) (s : State) : Addr := pair (romByte s.cart (vec + 1)) (romByte s.cart vec)

/-- The bus address of the stack byte `SP` points at (R14). -/
def stackAddr (sp : Byte) : Addr := 0x0100#16 + zext16 sp

/-- `Push(v)` (R9): the write, then the decrement mod 0x100. The stack page is RAM, so it cannot fault
(R57). -/
def push (v : Byte) (s : State) : State :=
  (s.setRam (s.ram.write (ramIndex (stackAddr s.sp)) v)).setSp (s.sp - 1)

/-- The byte `Pull()` returns (R9): the one at the incremented `SP`. -/
def pullByte (s : State) : Byte := s.ram.read (ramIndex (stackAddr (s.sp + 1)))

/-- The state after `Pull()` (R9): `SP` incremented mod 0x100. -/
def pullState (s : State) : State := s.setSp (s.sp + 1)

/-- Pushes a 16-bit address, the high byte first (R75, R201). -/
def pushAddr (a : Addr) (s : State) : State := push (loByte a) (push (hiByte a) s)

/-- Taking an interrupt, shared by the NMI (R331) and BRK (R232, R332): the return address is pushed high
byte first, then the given copy of the flags; the stored `P` gains `I` and nothing else; `PC` comes
from the vector. -/
def interruptEntry (ret : Addr) (pushed : Byte) (vec : Addr) (s : State) : State :=
  let t := push pushed (pushAddr ret s)
  (t.setP (setFlag .I true t.p)).setPc (readVector vec t)

/-- `NmiEntry()` (R331): the unmodified `PC`, the flags with B clear and U set, vector 0xFFFA. -/
def nmiEntry (s : State) : State :=
  interruptEntry s.pc ((s.p &&& 0xEF#8) ||| 0x20#8) Config.nmiVector s

/-- Returning from an interrupt (R233, R335): the flags first, merged as PLP merges them, then the
address, to which nothing is added. -/
def returnFromInterrupt (s : State) : State :=
  let s1 := (pullState s).setP (pulledFlags (pullByte s) s.p)
  let s2 := pullState s1
  (pullState s2).setPc (pair (pullByte s2) (pullByte s1))

/-- `reset()` (R361): `PC` from the reset vector, `P | 0x24`, nothing else. -/
def resetCpu (s : State) : State := (s.setPc (readVector Config.resetVector s)).setP (s.p ||| 0x24#8)

end Sys2Proof.Machine
end

