-- ==== Sys2Proof/Machine/Operands.lean ====
section
/-! DEFINITION. The addressing modes (30_encoding.md R102 to R117): the effective address of every
memory mode, and the operand access of R107 for the three kinds of instruction that have an operand:
those that read it, those that write it, and those that read and write it. -/

namespace Sys2Proof.Machine

/-- The memory modes with their operand (R102). -/
inductive MemMode where
  | zp (b1 : Byte)
  | zpx (b1 : Byte)
  | zpy (b1 : Byte)
  | abs (addr : Addr)
  | absx (addr : Addr)
  | absy (addr : Addr)
  | izx (b1 : Byte)
  | izy (b1 : Byte)
deriving DecidableEq, Repr

/-- `EA` of a memory mode: R106, R108, R114, R109, R110, R115, R112, R117 in this order. -/
def effAddr (m : MemMode) (s : State) : Addr :=
  match m with
  | .zp b1 => zext16 b1
  | .zpx b1 => zext16 (b1 + s.x)
  | .zpy b1 => zext16 (b1 + s.y)
  | .abs addr => addr
  | .absx addr => addr + zext16 s.x
  | .absy addr => addr + zext16 s.y
  | .izx b1 => read16Zp (b1 + s.x) s
  | .izy b1 => read16Zp b1 s + zext16 s.y

/-- The operand of an instruction that reads one: an immediate value (R105) or a byte in memory. -/
inductive Operand where
  | imm (v : Byte)
  | mem (m : MemMode)
deriving DecidableEq, Repr

/-- The operand of a shift or rotate: the accumulator (R104) or a byte in memory. -/
inductive Target where
  | acc
  | mem (m : MemMode)
deriving DecidableEq, Repr

/-- `LoadOperand()` of an instruction that only reads (R107). -/
def loadOperand (o : Operand) (s : State) : Res Byte :=
  match o with
  | .imm v => .ok v s
  | .mem m => memRead (effAddr m s) s

/-- Reads the operand, computes a result and a new `P` from it, and writes the result back where it came
from (R107, R190). In memory that is one read and one write of the same `EA`, computed once, with
nothing between them (R80, R83). -/
def modifyTarget (t : Target) (op : Byte → Byte → Byte × Byte) (s : State) : Outcome :=
  match t with
  | .acc => .next ((s.setA (op s.a s.p).1).setP (op s.a s.p).2)
  | .mem m =>
    (memRead (effAddr m s) s).andThen fun v u =>
      memWrite (effAddr m s) (op v u.p).1 (u.setP (op v u.p).2)

/-- The target of a jump through `{b2, b1}` (R116): the second pointer byte comes from the same page,
without a carry into the high byte of the pointer's address. -/
def indirectTarget (addr : Addr) (s : State) : Res Addr :=
  (memRead addr s).bind fun lo s1 =>
    (memRead (pair (hiByte addr) (loByte addr + 1)) s1).bind fun hi s2 => .ok (pair hi lo) s2

/-- The target of a relative branch (R111): `PC` is already past the branch. -/
def branchTarget (off : Byte) (s : State) : Addr := s.pc + sext8 off

end Sys2Proof.Machine
end

