-- ==== Sys2Proof/Machine/Arithmetic.lean ====
section
/-! DEFINITION. Arithmetic, logic, compares, increments and decrements (41_arithmetic_logic.md). The
operations shared by the addressing modes come first, then one meaning for each instruction. `PC` is
already past the instruction (R101). -/

namespace Sys2Proof.Machine

/-- ADC (R160): binary whatever `P.D` holds. -/
def adc (o : Operand) (s : State) : Outcome :=
  (loadOperand o s).andThen fun m u =>
    .next ((u.setA (adcSum u.a m u.p).result).setP (sumFlags (adcSum u.a m u.p) u.p))

/-- SBC (R161): the ADC path on the complemented operand. -/
def sbc (o : Operand) (s : State) : Outcome :=
  (loadOperand o s).andThen fun m u =>
    .next ((u.setA (sbcSum u.a m u.p).result).setP (sumFlags (sbcSum u.a m u.p) u.p))

/-- AND, ORA, EOR (R162 to R164): `A` becomes the bitwise `op` of `A` and the operand, Z and N of it. -/
def logic (op : Byte → Byte → Byte) (o : Operand) (s : State) : Outcome :=
  (loadOperand o s).andThen fun m u => .next ((u.setA (op u.a m)).setP (setZN (op u.a m) u.p))

/-- CMP, CPX, CPY (R165 to R167) of the register value `r`: C, Z and N, no register. -/
def compareWith (r : Byte) (o : Operand) (s : State) : Outcome :=
  (loadOperand o s).andThen fun m u => .next (u.setP (compareFlags r m u.p))

/-- BIT (R168): Z from `A & M`, N and V from bits 7 and 6 of `M`. -/
def bitTest (m : MemMode) (s : State) : Outcome :=
  (memRead (effAddr m s) s).andThen fun v u => .next (u.setP (bitFlags u.a v u.p))

/-- ADC immediate (R160, R105). -/
def execAdcImm (v : Byte) (s : State) : Outcome := adc (.imm v) s

/-- ADC zero page (R160, R106). -/
def execAdcZp (b1 : Byte) (s : State) : Outcome := adc (.mem (.zp b1)) s

/-- ADC zero page,X (R160, R108). -/
def execAdcZpx (b1 : Byte) (s : State) : Outcome := adc (.mem (.zpx b1)) s

/-- ADC absolute (R160, R109). -/
def execAdcAbs (addr : Addr) (s : State) : Outcome := adc (.mem (.abs addr)) s

/-- ADC absolute,X (R160, R110). -/
def execAdcAbsx (addr : Addr) (s : State) : Outcome := adc (.mem (.absx addr)) s

/-- ADC absolute,Y (extension) (R160, R115). -/
def execAdcAbsy (addr : Addr) (s : State) : Outcome := adc (.mem (.absy addr)) s

/-- ADC (zero page,X) (R160, R112). -/
def execAdcIzx (b1 : Byte) (s : State) : Outcome := adc (.mem (.izx b1)) s

/-- ADC (zero page),Y (extension) (R160, R117). -/
def execAdcIzy (b1 : Byte) (s : State) : Outcome := adc (.mem (.izy b1)) s

/-- SBC immediate (R161, R105). -/
def execSbcImm (v : Byte) (s : State) : Outcome := sbc (.imm v) s

/-- SBC zero page (R161, R106). -/
def execSbcZp (b1 : Byte) (s : State) : Outcome := sbc (.mem (.zp b1)) s

/-- SBC zero page,X (R161, R108). -/
def execSbcZpx (b1 : Byte) (s : State) : Outcome := sbc (.mem (.zpx b1)) s

/-- SBC absolute (R161, R109). -/
def execSbcAbs (addr : Addr) (s : State) : Outcome := sbc (.mem (.abs addr)) s

/-- SBC absolute,X (R161, R110). -/
def execSbcAbsx (addr : Addr) (s : State) : Outcome := sbc (.mem (.absx addr)) s

/-- SBC absolute,Y (extension) (R161, R115). -/
def execSbcAbsy (addr : Addr) (s : State) : Outcome := sbc (.mem (.absy addr)) s

/-- SBC (zero page,X) (R161, R112). -/
def execSbcIzx (b1 : Byte) (s : State) : Outcome := sbc (.mem (.izx b1)) s

/-- SBC (zero page),Y (extension) (R161, R117). -/
def execSbcIzy (b1 : Byte) (s : State) : Outcome := sbc (.mem (.izy b1)) s

/-- AND immediate (R162, R105). -/
def execAndImm (v : Byte) (s : State) : Outcome := logic (· &&& ·) (.imm v) s

/-- AND zero page (R162, R106). -/
def execAndZp (b1 : Byte) (s : State) : Outcome := logic (· &&& ·) (.mem (.zp b1)) s

/-- AND zero page,X (R162, R108). -/
def execAndZpx (b1 : Byte) (s : State) : Outcome := logic (· &&& ·) (.mem (.zpx b1)) s

/-- AND absolute (R162, R109). -/
def execAndAbs (addr : Addr) (s : State) : Outcome := logic (· &&& ·) (.mem (.abs addr)) s

/-- AND absolute,X (R162, R110). -/
def execAndAbsx (addr : Addr) (s : State) : Outcome := logic (· &&& ·) (.mem (.absx addr)) s

/-- AND absolute,Y (extension) (R162, R115). -/
def execAndAbsy (addr : Addr) (s : State) : Outcome := logic (· &&& ·) (.mem (.absy addr)) s

/-- AND (zero page,X) (R162, R112). -/
def execAndIzx (b1 : Byte) (s : State) : Outcome := logic (· &&& ·) (.mem (.izx b1)) s

/-- AND (zero page),Y (extension) (R162, R117). -/
def execAndIzy (b1 : Byte) (s : State) : Outcome := logic (· &&& ·) (.mem (.izy b1)) s

/-- ORA immediate (R163, R105). -/
def execOraImm (v : Byte) (s : State) : Outcome := logic (· ||| ·) (.imm v) s

/-- ORA zero page (R163, R106). -/
def execOraZp (b1 : Byte) (s : State) : Outcome := logic (· ||| ·) (.mem (.zp b1)) s

/-- ORA zero page,X (R163, R108). -/
def execOraZpx (b1 : Byte) (s : State) : Outcome := logic (· ||| ·) (.mem (.zpx b1)) s

/-- ORA absolute (R163, R109). -/
def execOraAbs (addr : Addr) (s : State) : Outcome := logic (· ||| ·) (.mem (.abs addr)) s

/-- ORA absolute,X (R163, R110). -/
def execOraAbsx (addr : Addr) (s : State) : Outcome := logic (· ||| ·) (.mem (.absx addr)) s

/-- ORA absolute,Y (extension) (R163, R115). -/
def execOraAbsy (addr : Addr) (s : State) : Outcome := logic (· ||| ·) (.mem (.absy addr)) s

/-- ORA (zero page,X) (R163, R112). -/
def execOraIzx (b1 : Byte) (s : State) : Outcome := logic (· ||| ·) (.mem (.izx b1)) s

/-- ORA (zero page),Y (extension) (R163, R117). -/
def execOraIzy (b1 : Byte) (s : State) : Outcome := logic (· ||| ·) (.mem (.izy b1)) s

/-- EOR immediate (R164, R105). -/
def execEorImm (v : Byte) (s : State) : Outcome := logic (· ^^^ ·) (.imm v) s

/-- EOR zero page (R164, R106). -/
def execEorZp (b1 : Byte) (s : State) : Outcome := logic (· ^^^ ·) (.mem (.zp b1)) s

/-- EOR zero page,X (R164, R108). -/
def execEorZpx (b1 : Byte) (s : State) : Outcome := logic (· ^^^ ·) (.mem (.zpx b1)) s

/-- EOR absolute (R164, R109). -/
def execEorAbs (addr : Addr) (s : State) : Outcome := logic (· ^^^ ·) (.mem (.abs addr)) s

/-- EOR absolute,X (R164, R110). -/
def execEorAbsx (addr : Addr) (s : State) : Outcome := logic (· ^^^ ·) (.mem (.absx addr)) s

/-- EOR absolute,Y (extension) (R164, R115). -/
def execEorAbsy (addr : Addr) (s : State) : Outcome := logic (· ^^^ ·) (.mem (.absy addr)) s

/-- EOR (zero page,X) (R164, R112). -/
def execEorIzx (b1 : Byte) (s : State) : Outcome := logic (· ^^^ ·) (.mem (.izx b1)) s

/-- EOR (zero page),Y (extension) (R164, R117). -/
def execEorIzy (b1 : Byte) (s : State) : Outcome := logic (· ^^^ ·) (.mem (.izy b1)) s

/-- CMP immediate (R165, R105). -/
def execCmpImm (v : Byte) (s : State) : Outcome := compareWith s.a (.imm v) s

/-- CMP zero page (R165, R106). -/
def execCmpZp (b1 : Byte) (s : State) : Outcome := compareWith s.a (.mem (.zp b1)) s

/-- CMP zero page,X (R165, R108). -/
def execCmpZpx (b1 : Byte) (s : State) : Outcome := compareWith s.a (.mem (.zpx b1)) s

/-- CMP absolute (R165, R109). -/
def execCmpAbs (addr : Addr) (s : State) : Outcome := compareWith s.a (.mem (.abs addr)) s

/-- CMP absolute,X (R165, R110). -/
def execCmpAbsx (addr : Addr) (s : State) : Outcome := compareWith s.a (.mem (.absx addr)) s

/-- CMP absolute,Y (extension) (R165, R115). -/
def execCmpAbsy (addr : Addr) (s : State) : Outcome := compareWith s.a (.mem (.absy addr)) s

/-- CMP (zero page,X) (R165, R112). -/
def execCmpIzx (b1 : Byte) (s : State) : Outcome := compareWith s.a (.mem (.izx b1)) s

/-- CMP (zero page),Y (extension) (R165, R117). -/
def execCmpIzy (b1 : Byte) (s : State) : Outcome := compareWith s.a (.mem (.izy b1)) s

/-- CPX immediate (R166, R105). -/
def execCpxImm (v : Byte) (s : State) : Outcome := compareWith s.x (.imm v) s

/-- CPX zero page (R166, R106). -/
def execCpxZp (b1 : Byte) (s : State) : Outcome := compareWith s.x (.mem (.zp b1)) s

/-- CPX absolute (R166, R109). -/
def execCpxAbs (addr : Addr) (s : State) : Outcome := compareWith s.x (.mem (.abs addr)) s

/-- CPY immediate (R167, R105). -/
def execCpyImm (v : Byte) (s : State) : Outcome := compareWith s.y (.imm v) s

/-- CPY zero page (R167, R106). -/
def execCpyZp (b1 : Byte) (s : State) : Outcome := compareWith s.y (.mem (.zp b1)) s

/-- CPY absolute (R167, R109). -/
def execCpyAbs (addr : Addr) (s : State) : Outcome := compareWith s.y (.mem (.abs addr)) s

/-- BIT zero page (R168, R106). -/
def execBitZp (b1 : Byte) (s : State) : Outcome := bitTest (.zp b1) s

/-- BIT absolute (R168, R109). -/
def execBitAbs (addr : Addr) (s : State) : Outcome := bitTest (.abs addr) s

/-- INC zero page (R169, R106). -/
def execIncZp (b1 : Byte) (s : State) : Outcome := modifyTarget (.mem (.zp b1)) incByte s

/-- INC zero page,X (R169, R108). -/
def execIncZpx (b1 : Byte) (s : State) : Outcome := modifyTarget (.mem (.zpx b1)) incByte s

/-- INC absolute (R169, R109). -/
def execIncAbs (addr : Addr) (s : State) : Outcome := modifyTarget (.mem (.abs addr)) incByte s

/-- INC absolute,X (R169, R110). -/
def execIncAbsx (addr : Addr) (s : State) : Outcome := modifyTarget (.mem (.absx addr)) incByte s

/-- DEC zero page (R170, R106). -/
def execDecZp (b1 : Byte) (s : State) : Outcome := modifyTarget (.mem (.zp b1)) decByte s

/-- DEC zero page,X (R170, R108). -/
def execDecZpx (b1 : Byte) (s : State) : Outcome := modifyTarget (.mem (.zpx b1)) decByte s

/-- DEC absolute (R170, R109). -/
def execDecAbs (addr : Addr) (s : State) : Outcome := modifyTarget (.mem (.abs addr)) decByte s

/-- DEC absolute,X (R170, R110). -/
def execDecAbsx (addr : Addr) (s : State) : Outcome := modifyTarget (.mem (.absx addr)) decByte s

/-- INX implied (R171, R103). -/
def execInx (s : State) : Outcome := .next ((s.setX (s.x + 1)).setP (setZN (s.x + 1) s.p))

/-- INY implied (R172, R103). -/
def execIny (s : State) : Outcome := .next ((s.setY (s.y + 1)).setP (setZN (s.y + 1) s.p))

/-- DEX implied (R173, R103). -/
def execDex (s : State) : Outcome := .next ((s.setX (s.x - 1)).setP (setZN (s.x - 1) s.p))

/-- DEY implied (R174, R103). -/
def execDey (s : State) : Outcome := .next ((s.setY (s.y - 1)).setP (setZN (s.y - 1) s.p))

end Sys2Proof.Machine
end

