-- ==== Sys2Proof/Machine/Control.lean ====
section
/-! DEFINITION. Jumps, subroutine call and return, conditional branches (43_control_flow.md). `PC` is
already the address of the next sequential instruction (R101). -/

namespace Sys2Proof.Machine

/-- The common branch rule (R203): to the target when the condition holds, else on. -/
def branchIf (cond : Bool) (off : Byte) (s : State) : Outcome :=
  .next (if cond then s.setPc (branchTarget off s) else s)

/-- JMP absolute (R200, R109). -/
def execJmpAbs (addr : Addr) (s : State) : Outcome := .next (s.setPc addr)

/-- JMP indirect (extension) (R200, R116). -/
def execJmpInd (addr : Addr) (s : State) : Outcome :=
  (indirectTarget addr s).andThen fun target u => .next (u.setPc target)

/-- JSR (R201): pushes the address of its own last byte, high byte first, then jumps. -/
def execJsr (addr : Addr) (s : State) : Outcome := .next ((pushAddr (s.pc - 1) s).setPc addr)

/-- RTS (R202): pulls low byte then high byte, and adds 1. -/
def execRts (s : State) : Outcome :=
  let s1 := pullState s
  .next ((pullState s1).setPc (pair (pullByte s1) (pullByte s) + 1))

/-- BPL relative (R204, R111). -/
def execBpl (off : Byte) (s : State) : Outcome := branchIf (!getFlag .N s.p) off s

/-- BMI relative (R205, R111). -/
def execBmi (off : Byte) (s : State) : Outcome := branchIf (getFlag .N s.p) off s

/-- BVC relative (R206, R111). -/
def execBvc (off : Byte) (s : State) : Outcome := branchIf (!getFlag .V s.p) off s

/-- BVS relative (R207, R111). -/
def execBvs (off : Byte) (s : State) : Outcome := branchIf (getFlag .V s.p) off s

/-- BCC relative (R208, R111). -/
def execBcc (off : Byte) (s : State) : Outcome := branchIf (!getFlag .C s.p) off s

/-- BCS relative (R209, R111). -/
def execBcs (off : Byte) (s : State) : Outcome := branchIf (getFlag .C s.p) off s

/-- BNE relative (R210, R111). -/
def execBne (off : Byte) (s : State) : Outcome := branchIf (!getFlag .Z s.p) off s

/-- BEQ relative (R211, R111). -/
def execBeq (off : Byte) (s : State) : Outcome := branchIf (getFlag .Z s.p) off s

end Sys2Proof.Machine
end

