-- ==== Sys2Proof/Machine/LoadStore.lean ====
section
/-! DEFINITION. Loads, stores and register transfers (40_load_store_transfer.md). The operations shared by
the addressing modes come first, then one meaning for each instruction. `PC` is already past the
instruction (R101). -/

namespace Sys2Proof.Machine

/-- LDA (R141): the operand to `A`, Z and N of it. -/
def lda (o : Operand) (s : State) : Outcome :=
  (loadOperand o s).andThen fun v u => .next ((u.setA v).setP (setZN v u.p))

/-- LDX (R142): the operand to `X`, Z and N of it. -/
def ldx (o : Operand) (s : State) : Outcome :=
  (loadOperand o s).andThen fun v u => .next ((u.setX v).setP (setZN v u.p))

/-- LDY (R143): the operand to `Y`, Z and N of it. -/
def ldy (o : Operand) (s : State) : Outcome :=
  (loadOperand o s).andThen fun v u => .next ((u.setY v).setP (setZN v u.p))

/-- STA, STX, STY (R144 to R146): the byte `v` to `EA`, no read of `EA` and no flag. -/
def storeByte (m : MemMode) (v : Byte) (s : State) : Outcome := memWrite (effAddr m s) v s

/-- LDA immediate (R141, R105). -/
def execLdaImm (v : Byte) (s : State) : Outcome := lda (.imm v) s

/-- LDA zero page (R141, R106). -/
def execLdaZp (b1 : Byte) (s : State) : Outcome := lda (.mem (.zp b1)) s

/-- LDA zero page,X (R141, R108). -/
def execLdaZpx (b1 : Byte) (s : State) : Outcome := lda (.mem (.zpx b1)) s

/-- LDA absolute (R141, R109). -/
def execLdaAbs (addr : Addr) (s : State) : Outcome := lda (.mem (.abs addr)) s

/-- LDA absolute,X (R141, R110). -/
def execLdaAbsx (addr : Addr) (s : State) : Outcome := lda (.mem (.absx addr)) s

/-- LDA absolute,Y (extension) (R141, R115). -/
def execLdaAbsy (addr : Addr) (s : State) : Outcome := lda (.mem (.absy addr)) s

/-- LDA (zero page,X) (R141, R112). -/
def execLdaIzx (b1 : Byte) (s : State) : Outcome := lda (.mem (.izx b1)) s

/-- LDA (zero page),Y (extension) (R141, R117). -/
def execLdaIzy (b1 : Byte) (s : State) : Outcome := lda (.mem (.izy b1)) s

/-- LDX immediate (R142, R105). -/
def execLdxImm (v : Byte) (s : State) : Outcome := ldx (.imm v) s

/-- LDX zero page (R142, R106). -/
def execLdxZp (b1 : Byte) (s : State) : Outcome := ldx (.mem (.zp b1)) s

/-- LDX zero page,Y (extension) (R142, R114). -/
def execLdxZpy (b1 : Byte) (s : State) : Outcome := ldx (.mem (.zpy b1)) s

/-- LDX absolute (R142, R109). -/
def execLdxAbs (addr : Addr) (s : State) : Outcome := ldx (.mem (.abs addr)) s

/-- LDX absolute,Y (extension) (R142, R115). -/
def execLdxAbsy (addr : Addr) (s : State) : Outcome := ldx (.mem (.absy addr)) s

/-- LDY immediate (R143, R105). -/
def execLdyImm (v : Byte) (s : State) : Outcome := ldy (.imm v) s

/-- LDY zero page (R143, R106). -/
def execLdyZp (b1 : Byte) (s : State) : Outcome := ldy (.mem (.zp b1)) s

/-- LDY zero page,X (R143, R108). -/
def execLdyZpx (b1 : Byte) (s : State) : Outcome := ldy (.mem (.zpx b1)) s

/-- LDY absolute (R143, R109). -/
def execLdyAbs (addr : Addr) (s : State) : Outcome := ldy (.mem (.abs addr)) s

/-- LDY absolute,X (R143, R110). -/
def execLdyAbsx (addr : Addr) (s : State) : Outcome := ldy (.mem (.absx addr)) s

/-- STA zero page (R144, R106). -/
def execStaZp (b1 : Byte) (s : State) : Outcome := storeByte (.zp b1) s.a s

/-- STA zero page,X (R144, R108). -/
def execStaZpx (b1 : Byte) (s : State) : Outcome := storeByte (.zpx b1) s.a s

/-- STA absolute (R144, R109). -/
def execStaAbs (addr : Addr) (s : State) : Outcome := storeByte (.abs addr) s.a s

/-- STA absolute,X (R144, R110). -/
def execStaAbsx (addr : Addr) (s : State) : Outcome := storeByte (.absx addr) s.a s

/-- STA absolute,Y (extension) (R144, R115). -/
def execStaAbsy (addr : Addr) (s : State) : Outcome := storeByte (.absy addr) s.a s

/-- STA (zero page,X) (R144, R112). -/
def execStaIzx (b1 : Byte) (s : State) : Outcome := storeByte (.izx b1) s.a s

/-- STA (zero page),Y (extension) (R144, R117). -/
def execStaIzy (b1 : Byte) (s : State) : Outcome := storeByte (.izy b1) s.a s

/-- STX zero page (R145, R106). -/
def execStxZp (b1 : Byte) (s : State) : Outcome := storeByte (.zp b1) s.x s

/-- STX zero page,Y (extension) (R145, R114). -/
def execStxZpy (b1 : Byte) (s : State) : Outcome := storeByte (.zpy b1) s.x s

/-- STX absolute (R145, R109). -/
def execStxAbs (addr : Addr) (s : State) : Outcome := storeByte (.abs addr) s.x s

/-- STY zero page (R146, R106). -/
def execStyZp (b1 : Byte) (s : State) : Outcome := storeByte (.zp b1) s.y s

/-- STY zero page,X (R146, R108). -/
def execStyZpx (b1 : Byte) (s : State) : Outcome := storeByte (.zpx b1) s.y s

/-- STY absolute (R146, R109). -/
def execStyAbs (addr : Addr) (s : State) : Outcome := storeByte (.abs addr) s.y s

/-- TAX (R147): `A` to `X`, Z and N. -/
def execTax (s : State) : Outcome := .next ((s.setX s.a).setP (setZN s.a s.p))

/-- TAY (R148): `A` to `Y`, Z and N. -/
def execTay (s : State) : Outcome := .next ((s.setY s.a).setP (setZN s.a s.p))

/-- TXA (R149): `X` to `A`, Z and N. -/
def execTxa (s : State) : Outcome := .next ((s.setA s.x).setP (setZN s.x s.p))

/-- TYA (R150): `Y` to `A`, Z and N. -/
def execTya (s : State) : Outcome := .next ((s.setA s.y).setP (setZN s.y s.p))

/-- TSX (R151): `SP` to `X`, Z and N. -/
def execTsx (s : State) : Outcome := .next ((s.setX s.sp).setP (setZN s.sp s.p))

/-- TXS (R152): `X` to `SP`; the one transfer that writes no flag (conflict C9). -/
def execTxs (s : State) : Outcome := .next (s.setSp s.x)

end Sys2Proof.Machine
end

