-- ==== Sys2Proof/Machine/Shift.lean ====
section
/-! DEFINITION. Shifts and rotates (42_shift_rotate.md), over `modifyTarget` and the byte operations of
Flags.lean. -/

namespace Sys2Proof.Machine

/-- ASL accumulator (R191, R104). -/
def execAslAcc (s : State) : Outcome := modifyTarget .acc aslByte s

/-- ASL zero page (R191, R106). -/
def execAslZp (b1 : Byte) (s : State) : Outcome := modifyTarget (.mem (.zp b1)) aslByte s

/-- ASL zero page,X (R191, R108). -/
def execAslZpx (b1 : Byte) (s : State) : Outcome := modifyTarget (.mem (.zpx b1)) aslByte s

/-- ASL absolute (R191, R109). -/
def execAslAbs (addr : Addr) (s : State) : Outcome := modifyTarget (.mem (.abs addr)) aslByte s

/-- ASL absolute,X (R191, R110). -/
def execAslAbsx (addr : Addr) (s : State) : Outcome := modifyTarget (.mem (.absx addr)) aslByte s

/-- LSR accumulator (R192, R104). -/
def execLsrAcc (s : State) : Outcome := modifyTarget .acc lsrByte s

/-- LSR zero page (R192, R106). -/
def execLsrZp (b1 : Byte) (s : State) : Outcome := modifyTarget (.mem (.zp b1)) lsrByte s

/-- LSR zero page,X (R192, R108). -/
def execLsrZpx (b1 : Byte) (s : State) : Outcome := modifyTarget (.mem (.zpx b1)) lsrByte s

/-- LSR absolute (R192, R109). -/
def execLsrAbs (addr : Addr) (s : State) : Outcome := modifyTarget (.mem (.abs addr)) lsrByte s

/-- LSR absolute,X (R192, R110). -/
def execLsrAbsx (addr : Addr) (s : State) : Outcome := modifyTarget (.mem (.absx addr)) lsrByte s

/-- ROL accumulator (R193, R104). -/
def execRolAcc (s : State) : Outcome := modifyTarget .acc rolByte s

/-- ROL zero page (R193, R106). -/
def execRolZp (b1 : Byte) (s : State) : Outcome := modifyTarget (.mem (.zp b1)) rolByte s

/-- ROL zero page,X (R193, R108). -/
def execRolZpx (b1 : Byte) (s : State) : Outcome := modifyTarget (.mem (.zpx b1)) rolByte s

/-- ROL absolute (R193, R109). -/
def execRolAbs (addr : Addr) (s : State) : Outcome := modifyTarget (.mem (.abs addr)) rolByte s

/-- ROL absolute,X (R193, R110). -/
def execRolAbsx (addr : Addr) (s : State) : Outcome := modifyTarget (.mem (.absx addr)) rolByte s

/-- ROR accumulator (R194, R104). -/
def execRorAcc (s : State) : Outcome := modifyTarget .acc rorByte s

/-- ROR zero page (R194, R106). -/
def execRorZp (b1 : Byte) (s : State) : Outcome := modifyTarget (.mem (.zp b1)) rorByte s

/-- ROR zero page,X (R194, R108). -/
def execRorZpx (b1 : Byte) (s : State) : Outcome := modifyTarget (.mem (.zpx b1)) rorByte s

/-- ROR absolute (R194, R109). -/
def execRorAbs (addr : Addr) (s : State) : Outcome := modifyTarget (.mem (.abs addr)) rorByte s

/-- ROR absolute,X (R194, R110). -/
def execRorAbsx (addr : Addr) (s : State) : Outcome := modifyTarget (.mem (.absx addr)) rorByte s

end Sys2Proof.Machine
end

