-- ==== Sys2Proof/Machine/StackSystem.lean ====
section
/-! DEFINITION. Stack, flag and system instructions (44_stack_flags_system.md). `PC` is already the address
of the next sequential instruction (R101). -/

namespace Sys2Proof.Machine

/-- A flag instruction (R224 to R230): one flag of `P` written, every other bit kept. -/
def writeFlag (f : Flag) (b : Bool) (s : State) : Outcome := .next (s.setP (setFlag f b s.p))

/-- PHA (R220). -/
def execPha (s : State) : Outcome := .next (push s.a s)

/-- PLA (R221): the pulled byte to `A`, Z and N of it. -/
def execPla (s : State) : Outcome :=
  .next (((pullState s).setA (pullByte s)).setP (setZN (pullByte s) s.p))

/-- PHP (R222): the stored `P` as it is. -/
def execPhp (s : State) : Outcome := .next (push s.p s)

/-- PLP (R223): bits 4 and 5 of `P` keep their values. -/
def execPlp (s : State) : Outcome := .next ((pullState s).setP (pulledFlags (pullByte s) s.p))

/-- CLC implied (R224, R103). -/
def execClc (s : State) : Outcome := writeFlag .C false s

/-- SEC implied (R225, R103). -/
def execSec (s : State) : Outcome := writeFlag .C true s

/-- CLI implied (R226, R103). -/
def execCli (s : State) : Outcome := writeFlag .I false s

/-- SEI implied (R227, R103). -/
def execSei (s : State) : Outcome := writeFlag .I true s

/-- CLD implied (R228, R103). -/
def execCld (s : State) : Outcome := writeFlag .D false s

/-- SED implied (R229, R103). -/
def execSed (s : State) : Outcome := writeFlag .D true s

/-- CLV implied (R230, R103). -/
def execClv (s : State) : Outcome := writeFlag .V false s

/-- NOP (R231): only the decoder's advance of `PC`. -/
def execNop (s : State) : Outcome := .next s

/-- BRK (R232): takes the software interrupt. The pushed address skips one byte after BRK, the pushed flags
have B and U set. -/
def execBrk (s : State) : Outcome :=
  .next (interruptEntry (s.pc + 1) (s.p ||| 0x30#8) Config.irqBrkVector s)

/-- RTI (R233): the return from BRK and from the NMI. -/
def execRti (s : State) : Outcome := .next (returnFromInterrupt s)

end Sys2Proof.Machine
end

