-- ==== Sys2Proof/Machine/Dispatch.lean ====
section
/-! DEFINITION. One arm for each instruction: the direct call of its meaning. The state already has `PC`
past the instruction (30_encoding.md R101). -/

namespace Sys2Proof.Machine

open Sys2Proof

def exec (i : Instr) (s : State) : Host.Outcome State Fault Refusal :=
  match i with
  | .ldaImm v => Sys2Proof.Machine.execLdaImm v s
  | .ldaZp b1 => Sys2Proof.Machine.execLdaZp b1 s
  | .ldaZpx b1 => Sys2Proof.Machine.execLdaZpx b1 s
  | .ldaAbs addr => Sys2Proof.Machine.execLdaAbs addr s
  | .ldaAbsx addr => Sys2Proof.Machine.execLdaAbsx addr s
  | .ldaAbsy addr => Sys2Proof.Machine.execLdaAbsy addr s
  | .ldaIzx b1 => Sys2Proof.Machine.execLdaIzx b1 s
  | .ldaIzy b1 => Sys2Proof.Machine.execLdaIzy b1 s
  | .ldxImm v => Sys2Proof.Machine.execLdxImm v s
  | .ldxZp b1 => Sys2Proof.Machine.execLdxZp b1 s
  | .ldxZpy b1 => Sys2Proof.Machine.execLdxZpy b1 s
  | .ldxAbs addr => Sys2Proof.Machine.execLdxAbs addr s
  | .ldxAbsy addr => Sys2Proof.Machine.execLdxAbsy addr s
  | .ldyImm v => Sys2Proof.Machine.execLdyImm v s
  | .ldyZp b1 => Sys2Proof.Machine.execLdyZp b1 s
  | .ldyZpx b1 => Sys2Proof.Machine.execLdyZpx b1 s
  | .ldyAbs addr => Sys2Proof.Machine.execLdyAbs addr s
  | .ldyAbsx addr => Sys2Proof.Machine.execLdyAbsx addr s
  | .staZp b1 => Sys2Proof.Machine.execStaZp b1 s
  | .staZpx b1 => Sys2Proof.Machine.execStaZpx b1 s
  | .staAbs addr => Sys2Proof.Machine.execStaAbs addr s
  | .staAbsx addr => Sys2Proof.Machine.execStaAbsx addr s
  | .staAbsy addr => Sys2Proof.Machine.execStaAbsy addr s
  | .staIzx b1 => Sys2Proof.Machine.execStaIzx b1 s
  | .staIzy b1 => Sys2Proof.Machine.execStaIzy b1 s
  | .stxZp b1 => Sys2Proof.Machine.execStxZp b1 s
  | .stxZpy b1 => Sys2Proof.Machine.execStxZpy b1 s
  | .stxAbs addr => Sys2Proof.Machine.execStxAbs addr s
  | .styZp b1 => Sys2Proof.Machine.execStyZp b1 s
  | .styZpx b1 => Sys2Proof.Machine.execStyZpx b1 s
  | .styAbs addr => Sys2Proof.Machine.execStyAbs addr s
  | .tax => Sys2Proof.Machine.execTax s
  | .tay => Sys2Proof.Machine.execTay s
  | .txa => Sys2Proof.Machine.execTxa s
  | .tya => Sys2Proof.Machine.execTya s
  | .tsx => Sys2Proof.Machine.execTsx s
  | .txs => Sys2Proof.Machine.execTxs s
  | .adcImm v => Sys2Proof.Machine.execAdcImm v s
  | .adcZp b1 => Sys2Proof.Machine.execAdcZp b1 s
  | .adcZpx b1 => Sys2Proof.Machine.execAdcZpx b1 s
  | .adcAbs addr => Sys2Proof.Machine.execAdcAbs addr s
  | .adcAbsx addr => Sys2Proof.Machine.execAdcAbsx addr s
  | .adcAbsy addr => Sys2Proof.Machine.execAdcAbsy addr s
  | .adcIzx b1 => Sys2Proof.Machine.execAdcIzx b1 s
  | .adcIzy b1 => Sys2Proof.Machine.execAdcIzy b1 s
  | .sbcImm v => Sys2Proof.Machine.execSbcImm v s
  | .sbcZp b1 => Sys2Proof.Machine.execSbcZp b1 s
  | .sbcZpx b1 => Sys2Proof.Machine.execSbcZpx b1 s
  | .sbcAbs addr => Sys2Proof.Machine.execSbcAbs addr s
  | .sbcAbsx addr => Sys2Proof.Machine.execSbcAbsx addr s
  | .sbcAbsy addr => Sys2Proof.Machine.execSbcAbsy addr s
  | .sbcIzx b1 => Sys2Proof.Machine.execSbcIzx b1 s
  | .sbcIzy b1 => Sys2Proof.Machine.execSbcIzy b1 s
  | .andImm v => Sys2Proof.Machine.execAndImm v s
  | .andZp b1 => Sys2Proof.Machine.execAndZp b1 s
  | .andZpx b1 => Sys2Proof.Machine.execAndZpx b1 s
  | .andAbs addr => Sys2Proof.Machine.execAndAbs addr s
  | .andAbsx addr => Sys2Proof.Machine.execAndAbsx addr s
  | .andAbsy addr => Sys2Proof.Machine.execAndAbsy addr s
  | .andIzx b1 => Sys2Proof.Machine.execAndIzx b1 s
  | .andIzy b1 => Sys2Proof.Machine.execAndIzy b1 s
  | .oraImm v => Sys2Proof.Machine.execOraImm v s
  | .oraZp b1 => Sys2Proof.Machine.execOraZp b1 s
  | .oraZpx b1 => Sys2Proof.Machine.execOraZpx b1 s
  | .oraAbs addr => Sys2Proof.Machine.execOraAbs addr s
  | .oraAbsx addr => Sys2Proof.Machine.execOraAbsx addr s
  | .oraAbsy addr => Sys2Proof.Machine.execOraAbsy addr s
  | .oraIzx b1 => Sys2Proof.Machine.execOraIzx b1 s
  | .oraIzy b1 => Sys2Proof.Machine.execOraIzy b1 s
  | .eorImm v => Sys2Proof.Machine.execEorImm v s
  | .eorZp b1 => Sys2Proof.Machine.execEorZp b1 s
  | .eorZpx b1 => Sys2Proof.Machine.execEorZpx b1 s
  | .eorAbs addr => Sys2Proof.Machine.execEorAbs addr s
  | .eorAbsx addr => Sys2Proof.Machine.execEorAbsx addr s
  | .eorAbsy addr => Sys2Proof.Machine.execEorAbsy addr s
  | .eorIzx b1 => Sys2Proof.Machine.execEorIzx b1 s
  | .eorIzy b1 => Sys2Proof.Machine.execEorIzy b1 s
  | .cmpImm v => Sys2Proof.Machine.execCmpImm v s
  | .cmpZp b1 => Sys2Proof.Machine.execCmpZp b1 s
  | .cmpZpx b1 => Sys2Proof.Machine.execCmpZpx b1 s
  | .cmpAbs addr => Sys2Proof.Machine.execCmpAbs addr s
  | .cmpAbsx addr => Sys2Proof.Machine.execCmpAbsx addr s
  | .cmpAbsy addr => Sys2Proof.Machine.execCmpAbsy addr s
  | .cmpIzx b1 => Sys2Proof.Machine.execCmpIzx b1 s
  | .cmpIzy b1 => Sys2Proof.Machine.execCmpIzy b1 s
  | .cpxImm v => Sys2Proof.Machine.execCpxImm v s
  | .cpxZp b1 => Sys2Proof.Machine.execCpxZp b1 s
  | .cpxAbs addr => Sys2Proof.Machine.execCpxAbs addr s
  | .cpyImm v => Sys2Proof.Machine.execCpyImm v s
  | .cpyZp b1 => Sys2Proof.Machine.execCpyZp b1 s
  | .cpyAbs addr => Sys2Proof.Machine.execCpyAbs addr s
  | .bitZp b1 => Sys2Proof.Machine.execBitZp b1 s
  | .bitAbs addr => Sys2Proof.Machine.execBitAbs addr s
  | .incZp b1 => Sys2Proof.Machine.execIncZp b1 s
  | .incZpx b1 => Sys2Proof.Machine.execIncZpx b1 s
  | .incAbs addr => Sys2Proof.Machine.execIncAbs addr s
  | .incAbsx addr => Sys2Proof.Machine.execIncAbsx addr s
  | .decZp b1 => Sys2Proof.Machine.execDecZp b1 s
  | .decZpx b1 => Sys2Proof.Machine.execDecZpx b1 s
  | .decAbs addr => Sys2Proof.Machine.execDecAbs addr s
  | .decAbsx addr => Sys2Proof.Machine.execDecAbsx addr s
  | .inx => Sys2Proof.Machine.execInx s
  | .iny => Sys2Proof.Machine.execIny s
  | .dex => Sys2Proof.Machine.execDex s
  | .dey => Sys2Proof.Machine.execDey s
  | .aslAcc => Sys2Proof.Machine.execAslAcc s
  | .aslZp b1 => Sys2Proof.Machine.execAslZp b1 s
  | .aslZpx b1 => Sys2Proof.Machine.execAslZpx b1 s
  | .aslAbs addr => Sys2Proof.Machine.execAslAbs addr s
  | .aslAbsx addr => Sys2Proof.Machine.execAslAbsx addr s
  | .lsrAcc => Sys2Proof.Machine.execLsrAcc s
  | .lsrZp b1 => Sys2Proof.Machine.execLsrZp b1 s
  | .lsrZpx b1 => Sys2Proof.Machine.execLsrZpx b1 s
  | .lsrAbs addr => Sys2Proof.Machine.execLsrAbs addr s
  | .lsrAbsx addr => Sys2Proof.Machine.execLsrAbsx addr s
  | .rolAcc => Sys2Proof.Machine.execRolAcc s
  | .rolZp b1 => Sys2Proof.Machine.execRolZp b1 s
  | .rolZpx b1 => Sys2Proof.Machine.execRolZpx b1 s
  | .rolAbs addr => Sys2Proof.Machine.execRolAbs addr s
  | .rolAbsx addr => Sys2Proof.Machine.execRolAbsx addr s
  | .rorAcc => Sys2Proof.Machine.execRorAcc s
  | .rorZp b1 => Sys2Proof.Machine.execRorZp b1 s
  | .rorZpx b1 => Sys2Proof.Machine.execRorZpx b1 s
  | .rorAbs addr => Sys2Proof.Machine.execRorAbs addr s
  | .rorAbsx addr => Sys2Proof.Machine.execRorAbsx addr s
  | .jmpAbs addr => Sys2Proof.Machine.execJmpAbs addr s
  | .jmpInd addr => Sys2Proof.Machine.execJmpInd addr s
  | .jsr addr => Sys2Proof.Machine.execJsr addr s
  | .rts => Sys2Proof.Machine.execRts s
  | .bpl off => Sys2Proof.Machine.execBpl off s
  | .bmi off => Sys2Proof.Machine.execBmi off s
  | .bvc off => Sys2Proof.Machine.execBvc off s
  | .bvs off => Sys2Proof.Machine.execBvs off s
  | .bcc off => Sys2Proof.Machine.execBcc off s
  | .bcs off => Sys2Proof.Machine.execBcs off s
  | .bne off => Sys2Proof.Machine.execBne off s
  | .beq off => Sys2Proof.Machine.execBeq off s
  | .pha => Sys2Proof.Machine.execPha s
  | .pla => Sys2Proof.Machine.execPla s
  | .php => Sys2Proof.Machine.execPhp s
  | .plp => Sys2Proof.Machine.execPlp s
  | .clc => Sys2Proof.Machine.execClc s
  | .sec => Sys2Proof.Machine.execSec s
  | .cli => Sys2Proof.Machine.execCli s
  | .sei => Sys2Proof.Machine.execSei s
  | .cld => Sys2Proof.Machine.execCld s
  | .sed => Sys2Proof.Machine.execSed s
  | .clv => Sys2Proof.Machine.execClv s
  | .nop => Sys2Proof.Machine.execNop s
  | .brk => Sys2Proof.Machine.execBrk s
  | .rti => Sys2Proof.Machine.execRti s

end Sys2Proof.Machine
end

