-- ==== Sys2Proof/Machine/Fetch.lean ====
section
/-! DEFINITION. The fetch of one instruction from the bus (30_encoding.md R101): the opcode byte, then as
many operand bytes as it asks for, and the one advance of `PC`. -/

namespace Sys2Proof.Machine

/-- Reads `n` bytes at ascending addresses from `a` on, wrapping mod 0x10000 (R79, R101). -/
def readBytes : Nat → Addr → State → Res (List Byte)
  | 0, _, s => .ok [] s
  | n + 1, a, s =>
    (memRead a s).bind fun b t => (readBytes n (a + 1) t).bind fun bs u => .ok (b :: bs) u

/-- The decoder's part of `Step()` (R101): the instruction at `PC`, and the state in which it executes,
`PC` past its bytes. An `Unknown` opcode byte faults before any operand byte is read (R121, R323). -/
def fetch (s : State) : Res Instr :=
  (memRead s.pc s).bind fun opc t =>
    match lookup s.extModes opc with
    | none => .fault (.unimplementedInstruction opc) t
    | some form =>
      (readBytes (form.length - 1) (s.pc + 1) t).bind fun operands u =>
        match decode s.extModes (opc :: operands) with
        | .ok (i, _) => .ok i (u.setPc (s.pc + BitVec.ofNat 16 form.length))
        | .error _ => .fault (.unimplementedInstruction opc) u

/-- The state after the fetch, whether it has succeeded or faulted: the bus reads it made have been performed,
with their side effects on a PPU port, and `PC` has advanced only if all of them succeeded and the opcode
byte has a row (R101, R322, R323). -/
def afterFetch (s : State) : State :=
  match fetch s with
  | .ok _ u => u
  | .fault _ u => u

end Sys2Proof.Machine
end

