-- ==== Sys2Proof/Machine/Coordinator.lean ====
section
/-! DEFINITION. The clock coordinator (48_clock_coordinator.md): the CPU step, the iteration, what a
fault leaves, and the actions of the host between iterations. -/

namespace Sys2Proof.Machine

/-- `CPU.Step()` (R101): decode one instruction at `PC`, advance `PC`, execute. -/
def cpuStep (s : State) : Outcome := (fetch s).andThen fun i t => exec i t

/-- Delivery of a pending NMI (R301, R303): the latch is cleared and the entry performed. -/
def deliverNmi (s : State) : State := if s.nmiPending then nmiEntry (s.setNmi false) else s

/-- What follows a successful CPU step in the same iteration (R301): three ticks, then NMI delivery. -/
def finishIteration (s : State) : State := deliverNmi (tick (tick (tick s)))

/-- `Iterate()` (R301). A halted machine answers its fault again (R324); a stop request is seen at the
top (R304); a fault of the step ends the run with no tick and no NMI delivery. -/
def iterate (s : State) : Outcome :=
  match s.halted with
  | some f => .fault f
  | none =>
    if s.stopRequested then .refused .stopped
    else
      match cpuStep s with
      | .next t => .next (finishIteration t)
      | .fault f => .fault f
      | .refused r => .refused r

/-- `k` free bytes, the draws from the `n`-th on (log entry 5). -/
def freeBytes (n k : Nat) : Memory := Memory.ofBytes ((List.range k).map fun i => Config.freeByte (n + i))

/-- The state with every CPU register, every flag and every byte of RAM, OAM and VRAM a free value: after a
`BusFault` the spec defines none of them, and no claim may read them (R324, log entry 5). The PPU registers,
counters and latches stay. -/
def obscure (s : State) : State :=
  let n := s.draws
  let m := n + 7 + Config.ramSize
  { s with
    a := Config.freeByte n, x := Config.freeByte (n + 1), y := Config.freeByte (n + 2)
    sp := Config.freeByte (n + 3), p := Config.freeByte (n + 4)
    pc := pair (Config.freeByte (n + 5)) (Config.freeByte (n + 6))
    ram := freeBytes (n + 7) Config.ramSize
    ppu :=
      { s.ppu with
        oam := freeBytes m Config.oamSize
        vram := freeBytes (m + Config.oamSize) Config.vramSize }
    draws := m + Config.oamSize + Config.vramSize }

/-- What a CPU step that ends in the fault `f` leaves. The accesses of its fetch have been performed, with their
side effects (R322); a data access before the one that faults has none (laws `modifyTarget_fault`,
`indirectTarget_fault`). After `UnimplementedInstruction` PC and the registers are as before the step (R323);
so is everything else but the side effect of the opcode read, which is DEDUCED, safe, from the one bus read of
R323 (log entry 5). After `BusFault` the registers, the flags and memory are free values (R324, log entry 5). -/
def faultResidue (f : Fault) (s : State) : State :=
  match f with
  | .unimplementedInstruction _ => afterFetch s
  | .busFault _ => obscure (afterFetch s)

/-- The halted state that the coordinator leaves when the iteration from `s` ends in a fault (R301, R324);
`none` when it does not. A halted machine stays as it is. -/
def haltedState (s : State) : Option State :=
  match s.halted with
  | some _ => some s
  | none =>
    match iterate s with
    | .fault f => some ((faultResidue f s).setHalted (some f))
    | .next _ => none
    | .refused _ => none

/-- The transfers of `OamDma` from the `i`-th byte of a page on, `n` of them (R274): each is an ordinary
bus read, with its side effects and its faults, and a write of OAM that wraps in its 256 bytes. -/
def oamDmaFrom : Nat → Nat → Byte → State → Res Unit
  | 0, _, _, s => .ok () s
  | n + 1, i, page, s =>
    (memRead (pair page 0 + BitVec.ofNat 16 i) s).bind fun b t =>
      oamDmaFrom n (i + 1) page
        (t.setPpu
          { t.ppu with oam := t.ppu.oam.write ((t.ppu.oamAddr.toNat + i) % Config.oamSize) b })

/-- `OamDma(page)` (R274): 255 bytes; `oam_addr` is not changed. -/
def oamDma (page : Byte) (s : State) : Res Unit := oamDmaFrom Config.oamDmaLen 0 page s

/-- What the host may do to a running machine that changes it (R305). -/
inductive HostAction where
  | requestStop
  | resetCpu
  | oamDma (page : Byte)
deriving DecidableEq, Repr

/-- The effect of a host action, between two iterations (R304, R305, R329, R361). DEDUCED (log entry 12), safe: on
a halted machine no agent acts any more (R4, R6), so the action has no effect and answers the fault again;
`reset()` does not revive it (R324). -/
def hostAct (act : HostAction) (s : State) : Outcome :=
  match s.halted with
  | some f => .fault f
  | none =>
    match act with
    | .requestStop => .next (s.setStop true)
    | .resetCpu => .next (resetCpu s)
    | .oamDma page => (oamDma page s).andThen fun _ t => .next t

/-- The halted state that a host action leaves when it ends in a fault; `none` when it does not. DESIGN CHOICE
(log entry 11), safe: a `BusFault` of `OamDma` halts the machine like one of a CPU step. Every field but
`halted` is as the transfers before the fault have left it (R322). -/
def hostHaltedState (act : HostAction) (s : State) : Option State :=
  match s.halted with
  | some _ => some s
  | none =>
    match act with
    | .requestStop => none
    | .resetCpu => none
    | .oamDma page =>
      match oamDma page s with
      | .ok _ _ => none
      | .fault f t => some (t.setHalted (some f))

/-- What the PPU gives its collaborators, by read access that changes nothing (R275). -/
structure Presentation where
  vram : Memory
  oam : Memory
  ctrl : Byte
  mask : Byte
  scrollX : Byte
  scrollY : Byte
deriving DecidableEq, Repr

/-- The host's read access between iterations (R275, R305). -/
def presentation (s : State) : Presentation :=
  { vram := s.ppu.vram, oam := s.ppu.oam, ctrl := s.ppu.ctrl, mask := s.ppu.mask
    scrollX := s.ppu.scrollX, scrollY := s.ppu.scrollY }

end Sys2Proof.Machine
end

