-- ==== Sys2Proof/Machine/Place.lean ====
section
/-! DEFINITION. Placing an instruction where the next fetch reads it, in place of a launch with a
cartridge that holds it (log entry 6). It is no operation of the hardware. -/

namespace Sys2Proof.Machine

/-- Can a byte be placed at the address: does a read of it return a stored RAM or PRG byte? -/
def placeable (addr : Addr) : Bool := regionOf addr == .ram || regionOf addr == .cartridge

/-- The state in which the bus reads `v` at a RAM or cartridge address. -/
def placeByte (addr : Addr) (v : Byte) (s : State) : State :=
  match regionOf addr with
  | .ram => s.setRam (s.ram.write (ramIndex addr) v)
  | .cartridge =>
    { s with
      cart := { s.cart with prg := s.cart.prg.write (translate s.cart.mapper s.cart.prgLen addr) v } }
  | .ports => s
  | .sink => s
  | .unmapped => s

/-- The bytes at ascending addresses from `addr` on. -/
def placeBytes : List Byte → Addr → State → State
  | [], _, s => s
  | b :: bs, addr, s => placeBytes bs (addr + 1) (placeByte addr b s)

/-- `PC` itself where three bytes can be placed from there on; else 0x0000, in RAM. -/
def placePc (s : State) : Addr :=
  if placeable s.pc && placeable (s.pc + 1) && placeable (s.pc + 2) then s.pc else 0

/-- Is the byte an opcode of the extension profile only (R122)? -/
def needsExt (opc : Byte) : Bool := (lookup true opc).isSome && (lookup false opc).isNone

/-- The machine about to run the instruction with the given bytes: they lie at `PC`, `EXT_MODES` is true
if the opcode exists only then, and no halt or stop request keeps the next step from fetching. -/
def placeInstruction (bs : List Byte) (s : State) : State :=
  let t := placeBytes bs (placePc s) (s.setPc (placePc s))
  { t with
    extModes := s.extModes || needsExt (bs.headD 0)
    halted := none
    stopRequested := false }

end Sys2Proof.Machine
end

