-- ==== Sys2Proof/Machine/Step.lean ====
section
/-! DEFINITION. One step of the whole machine: one coordinator iteration (48_clock_coordinator.md R301). -/

namespace Sys2Proof.Machine

/-- One iteration: one CPU step, three PPU ticks, NMI delivery (R301). A fault is the end `Halted(f)` of
the run, the refusal `stopped` its end `Stopped` (R308). -/
def step (s : State) : Host.Outcome State Fault Refusal := iterate s

/-- The state in which the next step fetches and runs exactly the instruction whose bits are `w`, numbered
as spec/opcode_table.json numbers them (log entry 6). -/
def State.withFetchWord (s : State) (nbits w : Nat) : State := placeInstruction (tableBytes nbits w) s

end Sys2Proof.Machine
end

