-- ==== Sys2Proof/Machine/Launch.lean ====
section
/-! DEFINITION. From a cartridge image to the first state of a run: parse, mapper check, construction,
`reset()` and the overrides (20_memory.md R64 to R70; 70_reset_and_hazards.md R360 to R363). -/

namespace Sys2Proof.Machine

/-- The mapper number of a header (R66). -/
def mapperId (h : Header) : Byte := (h.flags6 >>> 4) ||| (h.flags7 &&& 0xF0#8)

/-- A parsed image: its header and the PRG and CHR bytes of the file (R66). -/
structure Image where
  header : Header
  prgFile : List Byte
  chrRom : List Byte
deriving DecidableEq, Repr

/-- The PRG counts a launch accepts (R69, decision D26). -/
def legalPrgCounts : List Byte := [1, 2, 4, 8, 16, 32, 64, 128]

/-- `parse(raw)` with the launch preconditions of R69: `FormatError` for an image shorter than its header
or than its declared PRG and CHR (R68), for a wrong tag, and for a PRG count that is 0 or no power of
two (R69, R70). Bytes after the declared ones are ignored. -/
def parse (raw : List Byte) : Except Refusal Image :=
  match raw with
  | t0 :: t1 :: t2 :: t3 :: prgCount :: chrCount :: flags6 :: flags7 :: prgRamCount :: flags9 :: flags10 ::
      _ :: _ :: _ :: _ :: _ :: body =>
    let prgSize := prgCount.toNat * Config.prgBank
    let chrSize := chrCount.toNat * Config.chrUnit
    if body.length < prgSize + chrSize then .error .formatError
    else if [t0, t1, t2, t3] ≠ [0x4E#8, 0x45#8, 0x53#8, 0x1A#8] then .error .formatError
    else if prgCount ∉ legalPrgCounts then .error .formatError
    else
      .ok
        { header :=
            { prgCount := prgCount, chrCount := chrCount, flags6 := flags6, flags7 := flags7
              prgRamCount := prgRamCount, flags9 := flags9, flags10 := flags10 }
          prgFile := body.take prgSize
          chrRom := (body.drop prgSize).take chrSize }
  | _ => .error .formatError

/-- The PRG buffer (R67): a 16 KiB image is duplicated to fill 32 KiB. -/
def prgBuffer (prgFile : List Byte) : List Byte :=
  if prgFile.length = Config.prgBank then prgFile ++ prgFile else prgFile

/-- The policy of a mapper number, if there is one (R64). -/
def mapperOf (id : Byte) : Option Mapper :=
  if id = 0 then some .mapper0 else if id = 1 then some .mapper1 else none

/-- The mapper check of the launch and the loaded cartridge (R64, R67, R70). -/
def insertImage (img : Image) : Except Refusal Cartridge :=
  match mapperOf (mapperId img.header) with
  | none => .error (.unsupportedMapper (mapperId img.header))
  | some m =>
    .ok
      { header := img.header
        mapper := m
        prg := Memory.ofBytes (prgBuffer img.prgFile)
        prgLen := (prgBuffer img.prgFile).length
        chr := Memory.ofBytes img.chrRom
        chrLen := img.chrRom.length }

/-- The arguments of a launch (R363): the image and the OPEN parameters of R7. -/
structure LaunchParams where
  image : List Byte
  ramInit : Vector Byte Config.ramSize
  vramInit : Vector Byte Config.vramSize
  oamInit : Vector Byte Config.oamSize
  pcOverride : Option Addr
  spOverride : Option Byte
  extModes : Bool
  statusReadClearsW : Bool

/-- Power-on construction around a loaded cartridge (R360). -/
def construct (prm : LaunchParams) (cart : Cartridge) : State :=
  { a := 0, x := 0, y := 0, sp := 0, pc := 0, p := 0
    ram := Memory.ofBytes prm.ramInit.toList
    cart := cart
    ppu :=
      { Ppu.powerOn with
        oam := Memory.ofBytes prm.oamInit.toList
        vram := Memory.ofBytes prm.vramInit.toList }
    nmiPending := false, halted := none, stopRequested := false
    extModes := prm.extModes, statusReadClearsW := prm.statusReadClearsW, draws := 0 }

/-- The overrides, each optional, applied after `reset()` (R362). -/
def applyOverrides (prm : LaunchParams) (s : State) : State :=
  let s1 := match prm.pcOverride with
    | some pc => s.setPc pc
    | none => s
  match prm.spOverride with
  | some sp => s1.setSp sp
  | none => s1

/-- The launch sequence up to the first iteration (R363): a refused launch has no state (R70). -/
def launch (prm : LaunchParams) : Outcome :=
  match parse prm.image with
  | .error r => .refused r
  | .ok img =>
    match insertImage img with
    | .error r => .refused r
    | .ok cart => .next (applyOverrides prm (resetCpu (construct prm cart)))

end Sys2Proof.Machine
end

