-- ==== Sys2Proof/Safety.lean ====
section
/-! DEFINITION. What counts as a sound state, in the terms the statements use, and how a run ends. -/

namespace Sys2Proof.Machine

/-- The machine's byte arrays are canonical and each lies within its size (R7, R25, R26, R34, R35). -/
abbrev State.MemoriesWf (s : State) : Prop :=
  (s.ram.wf ∧ s.ram.within Config.ramSize) ∧
  (s.ppu.vram.wf ∧ s.ppu.vram.within Config.vramSize) ∧
  (s.ppu.oam.wf ∧ s.ppu.oam.within Config.oamSize) ∧
  (s.cart.prg.wf ∧ s.cart.prg.within s.cart.prgLen) ∧
  (s.cart.chr.wf ∧ s.cart.chr.within s.cart.chrLen)

/-- `PRG_LEN` is a power-of-two multiple of 16 KiB and at least 32 KiB, and the CHR length a multiple of
8 KiB (R26, R67, R69). -/
abbrev Cartridge.Sound (c : Cartridge) : Prop :=
  c.prgLen ∈ [2, 4, 8, 16, 32, 64, 128].map (fun k => k * Config.prgBank) ∧ c.chrLen % Config.chrUnit = 0

/-- The counters are in range (R37), the status register has the vblank bit exactly on lines 241 to 260 and its
other bits 0 (R30, R262), and the cycle count gives the place in the frame (R261). -/
abbrev Ppu.Sound (q : Ppu) : Prop :=
  q.x < Config.dotsPerLine ∧ q.y < Config.linesPerFrame ∧
  q.status = (if Config.vblankLine ≤ q.y then 0x80#8 else 0x00#8) ∧
  q.cycle % (Config.dotsPerLine * Config.linesPerFrame) = q.y * Config.dotsPerLine + q.x

/-- The invariant of a machine that was launched (R17, R18, R22, R26, R30, R37, R261). -/
abbrev State.Inv (s : State) : Prop :=
  s.MemoriesWf ∧ s.cart.Sound ∧ s.ppu.Sound ∧
  getFlag .U s.p = true ∧ getFlag .B s.p = false ∧ s.nmiPending = false

/-- The two ways a run ends (R308). -/
inductive RunEnd where
  | halted (f : Fault)
  | stopped
deriving DecidableEq, Repr

/-- How the run ends with an outcome of `step`, if it does (R308). -/
def runEnd : Outcome → Option RunEnd
  | .next _ => none
  | .fault f => some (.halted f)
  | .refused .stopped => some .stopped
  | .refused _ => none

end Sys2Proof.Machine
end

