-- ==== Sys2Proof/Certificates/Slice0/Obligations.lean ====
section
/-! DEFINITION. The statements for the provers, from the numbered rules of spec/. The namespace `Forms` holds
the words they share: which constructors are the rows of a mnemonic, with their opcode byte and operand as
R120 lists them, and what it means to change some flags and no other. Nothing here is about a program.
The opcode bytes and most operations of the instructions are passages that the spec supplies from general
knowledge and marks so (93_implementation_defined.md section 3, G1 to G8), so a statement about an
instruction has basis 'derived'. -/

namespace Sys2Proof.Forms

open Sys2Proof.Machine

/-! ### Encodings and operands -/

/-- The operand bytes of a memory mode (R102). -/
def modeBytes : MemMode → List Byte
  | .zp b1 => [b1]
  | .zpx b1 => [b1]
  | .zpy b1 => [b1]
  | .abs addr => [loByte addr, hiByte addr]
  | .absx addr => [loByte addr, hiByte addr]
  | .absy addr => [loByte addr, hiByte addr]
  | .izx b1 => [b1]
  | .izy b1 => [b1]

/-- The operand bytes of a read operand (R102, R105). -/
def operandBytes : Operand → List Byte
  | .imm v => [v]
  | .mem m => modeBytes m

/-- The operand bytes of a shift (R102, R104). -/
def targetBytes : Target → List Byte
  | .acc => []
  | .mem m => modeBytes m

/-- `i` has the given opcode byte and operand bytes, and they decode to it in both profiles, but for an
extension row with `EXT_MODES = false` (R113, R122). -/
def EncodedBy (i : Instr) (opc : Byte) (star : Bool) (tail : List Byte) : Prop :=
  encode i = opc :: tail ∧
  ∀ (e : Bool) (rest : List Byte),
    decode e (opc :: (tail ++ rest)) = if star && !e then .error (.unknown opc) else .ok (i, rest)

/-- The addresses a bus read does not fault at (R57). -/
def ReadMapped (a : Addr) : Prop := a.toNat < 0x4000 ∨ 0x8000 ≤ a.toNat

/-- The addresses a bus write does not fault at (R57). -/
def WriteMapped (a : Addr) : Prop := a.toNat < 0x4000 ∨ a = 0x4017#16

/-- The operand can be read without a fault: an immediate value always. -/
def OperandReadable : Operand → State → Prop
  | .imm _, _ => True
  | .mem m, s => ReadMapped (effAddr m s)

/-- The machine steps: it is not halted and no stop is requested (R301). -/
def Running (s : State) : Prop := s.halted = none ∧ s.stopRequested = false

/-- The LDA rows of R120: opcode byte, extension mark, operand (R141). -/
def ldaForm : Instr → Option (Byte × Bool × Operand)
  | .ldaImm v => some (0xA9#8, false, .imm v)
  | .ldaZp b1 => some (0xA5#8, false, .mem (.zp b1))
  | .ldaZpx b1 => some (0xB5#8, false, .mem (.zpx b1))
  | .ldaAbs addr => some (0xAD#8, false, .mem (.abs addr))
  | .ldaAbsx addr => some (0xBD#8, false, .mem (.absx addr))
  | .ldaAbsy addr => some (0xB9#8, true, .mem (.absy addr))
  | .ldaIzx b1 => some (0xA1#8, false, .mem (.izx b1))
  | .ldaIzy b1 => some (0xB1#8, true, .mem (.izy b1))
  | _ => none

/-- The LDX rows of R120: opcode byte, extension mark, operand (R142). -/
def ldxForm : Instr → Option (Byte × Bool × Operand)
  | .ldxImm v => some (0xA2#8, false, .imm v)
  | .ldxZp b1 => some (0xA6#8, false, .mem (.zp b1))
  | .ldxZpy b1 => some (0xB6#8, true, .mem (.zpy b1))
  | .ldxAbs addr => some (0xAE#8, false, .mem (.abs addr))
  | .ldxAbsy addr => some (0xBE#8, true, .mem (.absy addr))
  | _ => none

/-- The LDY rows of R120: opcode byte, extension mark, operand (R143). -/
def ldyForm : Instr → Option (Byte × Bool × Operand)
  | .ldyImm v => some (0xA0#8, false, .imm v)
  | .ldyZp b1 => some (0xA4#8, false, .mem (.zp b1))
  | .ldyZpx b1 => some (0xB4#8, false, .mem (.zpx b1))
  | .ldyAbs addr => some (0xAC#8, false, .mem (.abs addr))
  | .ldyAbsx addr => some (0xBC#8, false, .mem (.absx addr))
  | _ => none

/-- The ADC rows of R120: opcode byte, extension mark, operand (R160). -/
def adcForm : Instr → Option (Byte × Bool × Operand)
  | .adcImm v => some (0x69#8, false, .imm v)
  | .adcZp b1 => some (0x65#8, false, .mem (.zp b1))
  | .adcZpx b1 => some (0x75#8, false, .mem (.zpx b1))
  | .adcAbs addr => some (0x6D#8, false, .mem (.abs addr))
  | .adcAbsx addr => some (0x7D#8, false, .mem (.absx addr))
  | .adcAbsy addr => some (0x79#8, true, .mem (.absy addr))
  | .adcIzx b1 => some (0x61#8, false, .mem (.izx b1))
  | .adcIzy b1 => some (0x71#8, true, .mem (.izy b1))
  | _ => none

/-- The SBC rows of R120: opcode byte, extension mark, operand (R161). -/
def sbcForm : Instr → Option (Byte × Bool × Operand)
  | .sbcImm v => some (0xE9#8, false, .imm v)
  | .sbcZp b1 => some (0xE5#8, false, .mem (.zp b1))
  | .sbcZpx b1 => some (0xF5#8, false, .mem (.zpx b1))
  | .sbcAbs addr => some (0xED#8, false, .mem (.abs addr))
  | .sbcAbsx addr => some (0xFD#8, false, .mem (.absx addr))
  | .sbcAbsy addr => some (0xF9#8, true, .mem (.absy addr))
  | .sbcIzx b1 => some (0xE1#8, false, .mem (.izx b1))
  | .sbcIzy b1 => some (0xF1#8, true, .mem (.izy b1))
  | _ => none

/-- The AND rows of R120: opcode byte, extension mark, operand (R162). -/
def andForm : Instr → Option (Byte × Bool × Operand)
  | .andImm v => some (0x29#8, false, .imm v)
  | .andZp b1 => some (0x25#8, false, .mem (.zp b1))
  | .andZpx b1 => some (0x35#8, false, .mem (.zpx b1))
  | .andAbs addr => some (0x2D#8, false, .mem (.abs addr))
  | .andAbsx addr => some (0x3D#8, false, .mem (.absx addr))
  | .andAbsy addr => some (0x39#8, true, .mem (.absy addr))
  | .andIzx b1 => some (0x21#8, false, .mem (.izx b1))
  | .andIzy b1 => some (0x31#8, true, .mem (.izy b1))
  | _ => none

/-- The ORA rows of R120: opcode byte, extension mark, operand (R163). -/
def oraForm : Instr → Option (Byte × Bool × Operand)
  | .oraImm v => some (0x09#8, false, .imm v)
  | .oraZp b1 => some (0x05#8, false, .mem (.zp b1))
  | .oraZpx b1 => some (0x15#8, false, .mem (.zpx b1))
  | .oraAbs addr => some (0x0D#8, false, .mem (.abs addr))
  | .oraAbsx addr => some (0x1D#8, false, .mem (.absx addr))
  | .oraAbsy addr => some (0x19#8, true, .mem (.absy addr))
  | .oraIzx b1 => some (0x01#8, false, .mem (.izx b1))
  | .oraIzy b1 => some (0x11#8, true, .mem (.izy b1))
  | _ => none

/-- The EOR rows of R120: opcode byte, extension mark, operand (R164). -/
def eorForm : Instr → Option (Byte × Bool × Operand)
  | .eorImm v => some (0x49#8, false, .imm v)
  | .eorZp b1 => some (0x45#8, false, .mem (.zp b1))
  | .eorZpx b1 => some (0x55#8, false, .mem (.zpx b1))
  | .eorAbs addr => some (0x4D#8, false, .mem (.abs addr))
  | .eorAbsx addr => some (0x5D#8, false, .mem (.absx addr))
  | .eorAbsy addr => some (0x59#8, true, .mem (.absy addr))
  | .eorIzx b1 => some (0x41#8, false, .mem (.izx b1))
  | .eorIzy b1 => some (0x51#8, true, .mem (.izy b1))
  | _ => none

/-- The CMP rows of R120: opcode byte, extension mark, operand (R165). -/
def cmpForm : Instr → Option (Byte × Bool × Operand)
  | .cmpImm v => some (0xC9#8, false, .imm v)
  | .cmpZp b1 => some (0xC5#8, false, .mem (.zp b1))
  | .cmpZpx b1 => some (0xD5#8, false, .mem (.zpx b1))
  | .cmpAbs addr => some (0xCD#8, false, .mem (.abs addr))
  | .cmpAbsx addr => some (0xDD#8, false, .mem (.absx addr))
  | .cmpAbsy addr => some (0xD9#8, true, .mem (.absy addr))
  | .cmpIzx b1 => some (0xC1#8, false, .mem (.izx b1))
  | .cmpIzy b1 => some (0xD1#8, true, .mem (.izy b1))
  | _ => none

/-- The CPX rows of R120: opcode byte, extension mark, operand (R166). -/
def cpxForm : Instr → Option (Byte × Bool × Operand)
  | .cpxImm v => some (0xE0#8, false, .imm v)
  | .cpxZp b1 => some (0xE4#8, false, .mem (.zp b1))
  | .cpxAbs addr => some (0xEC#8, false, .mem (.abs addr))
  | _ => none

/-- The CPY rows of R120: opcode byte, extension mark, operand (R167). -/
def cpyForm : Instr → Option (Byte × Bool × Operand)
  | .cpyImm v => some (0xC0#8, false, .imm v)
  | .cpyZp b1 => some (0xC4#8, false, .mem (.zp b1))
  | .cpyAbs addr => some (0xCC#8, false, .mem (.abs addr))
  | _ => none

/-- The STA rows of R120: opcode byte, extension mark, memory mode (R144). -/
def staForm : Instr → Option (Byte × Bool × MemMode)
  | .staZp b1 => some (0x85#8, false, .zp b1)
  | .staZpx b1 => some (0x95#8, false, .zpx b1)
  | .staAbs addr => some (0x8D#8, false, .abs addr)
  | .staAbsx addr => some (0x9D#8, false, .absx addr)
  | .staAbsy addr => some (0x99#8, true, .absy addr)
  | .staIzx b1 => some (0x81#8, false, .izx b1)
  | .staIzy b1 => some (0x91#8, true, .izy b1)
  | _ => none

/-- The STX rows of R120: opcode byte, extension mark, memory mode (R145). -/
def stxForm : Instr → Option (Byte × Bool × MemMode)
  | .stxZp b1 => some (0x86#8, false, .zp b1)
  | .stxZpy b1 => some (0x96#8, true, .zpy b1)
  | .stxAbs addr => some (0x8E#8, false, .abs addr)
  | _ => none

/-- The STY rows of R120: opcode byte, extension mark, memory mode (R146). -/
def styForm : Instr → Option (Byte × Bool × MemMode)
  | .styZp b1 => some (0x84#8, false, .zp b1)
  | .styZpx b1 => some (0x94#8, false, .zpx b1)
  | .styAbs addr => some (0x8C#8, false, .abs addr)
  | _ => none

/-- The BIT rows of R120: opcode byte, extension mark, memory mode (R168). -/
def bitForm : Instr → Option (Byte × Bool × MemMode)
  | .bitZp b1 => some (0x24#8, false, .zp b1)
  | .bitAbs addr => some (0x2C#8, false, .abs addr)
  | _ => none

/-- The INC rows of R120: opcode byte, extension mark, memory mode (R169). -/
def incForm : Instr → Option (Byte × Bool × MemMode)
  | .incZp b1 => some (0xE6#8, false, .zp b1)
  | .incZpx b1 => some (0xF6#8, false, .zpx b1)
  | .incAbs addr => some (0xEE#8, false, .abs addr)
  | .incAbsx addr => some (0xFE#8, false, .absx addr)
  | _ => none

/-- The DEC rows of R120: opcode byte, extension mark, memory mode (R170). -/
def decForm : Instr → Option (Byte × Bool × MemMode)
  | .decZp b1 => some (0xC6#8, false, .zp b1)
  | .decZpx b1 => some (0xD6#8, false, .zpx b1)
  | .decAbs addr => some (0xCE#8, false, .abs addr)
  | .decAbsx addr => some (0xDE#8, false, .absx addr)
  | _ => none

/-- The ASL rows of R120: opcode byte, extension mark, operand (R191). -/
def aslForm : Instr → Option (Byte × Bool × Target)
  | .aslAcc => some (0x0A#8, false, .acc)
  | .aslZp b1 => some (0x06#8, false, .mem (.zp b1))
  | .aslZpx b1 => some (0x16#8, false, .mem (.zpx b1))
  | .aslAbs addr => some (0x0E#8, false, .mem (.abs addr))
  | .aslAbsx addr => some (0x1E#8, false, .mem (.absx addr))
  | _ => none

/-- The LSR rows of R120: opcode byte, extension mark, operand (R192). -/
def lsrForm : Instr → Option (Byte × Bool × Target)
  | .lsrAcc => some (0x4A#8, false, .acc)
  | .lsrZp b1 => some (0x46#8, false, .mem (.zp b1))
  | .lsrZpx b1 => some (0x56#8, false, .mem (.zpx b1))
  | .lsrAbs addr => some (0x4E#8, false, .mem (.abs addr))
  | .lsrAbsx addr => some (0x5E#8, false, .mem (.absx addr))
  | _ => none

/-- The ROL rows of R120: opcode byte, extension mark, operand (R193). -/
def rolForm : Instr → Option (Byte × Bool × Target)
  | .rolAcc => some (0x2A#8, false, .acc)
  | .rolZp b1 => some (0x26#8, false, .mem (.zp b1))
  | .rolZpx b1 => some (0x36#8, false, .mem (.zpx b1))
  | .rolAbs addr => some (0x2E#8, false, .mem (.abs addr))
  | .rolAbsx addr => some (0x3E#8, false, .mem (.absx addr))
  | _ => none

/-- The ROR rows of R120: opcode byte, extension mark, operand (R194). -/
def rorForm : Instr → Option (Byte × Bool × Target)
  | .rorAcc => some (0x6A#8, false, .acc)
  | .rorZp b1 => some (0x66#8, false, .mem (.zp b1))
  | .rorZpx b1 => some (0x76#8, false, .mem (.zpx b1))
  | .rorAbs addr => some (0x6E#8, false, .mem (.abs addr))
  | .rorAbsx addr => some (0x7E#8, false, .mem (.absx addr))
  | _ => none

/-- The branch rows of R120: opcode byte, the flag and the value tested, and the displacement byte (R204 to R211). -/
def branchForm : Instr → Option (Byte × Flag × Bool × Byte)
  | .bpl off => some (0x10#8, .N, false, off)
  | .bmi off => some (0x30#8, .N, true, off)
  | .bvc off => some (0x50#8, .V, false, off)
  | .bvs off => some (0x70#8, .V, true, off)
  | .bcc off => some (0x90#8, .C, false, off)
  | .bcs off => some (0xB0#8, .C, true, off)
  | .bne off => some (0xD0#8, .Z, false, off)
  | .beq off => some (0xF0#8, .Z, true, off)
  | _ => none

/-- The flag rows of R120: opcode byte, the flag written and its new value (R224 to R230). -/
def flagForm : Instr → Option (Byte × Flag × Bool)
  | .clc => some (0x18#8, .C, false)
  | .sec => some (0x38#8, .C, true)
  | .cli => some (0x58#8, .I, false)
  | .sei => some (0x78#8, .I, true)
  | .cld => some (0xD8#8, .D, false)
  | .sed => some (0xF8#8, .D, true)
  | .clv => some (0xB8#8, .V, false)
  | _ => none

/-- The memory mode of every form that stores to a memory operand: STA, STX, STY, INC, DEC and the memory
forms of the shifts and rotates. -/
def storeMode : Instr → Option MemMode
  | .staZp b1 => some (.zp b1)
  | .staZpx b1 => some (.zpx b1)
  | .staAbs addr => some (.abs addr)
  | .staAbsx addr => some (.absx addr)
  | .staAbsy addr => some (.absy addr)
  | .staIzx b1 => some (.izx b1)
  | .staIzy b1 => some (.izy b1)
  | .stxZp b1 => some (.zp b1)
  | .stxZpy b1 => some (.zpy b1)
  | .stxAbs addr => some (.abs addr)
  | .styZp b1 => some (.zp b1)
  | .styZpx b1 => some (.zpx b1)
  | .styAbs addr => some (.abs addr)
  | .incZp b1 => some (.zp b1)
  | .incZpx b1 => some (.zpx b1)
  | .incAbs addr => some (.abs addr)
  | .incAbsx addr => some (.absx addr)
  | .decZp b1 => some (.zp b1)
  | .decZpx b1 => some (.zpx b1)
  | .decAbs addr => some (.abs addr)
  | .decAbsx addr => some (.absx addr)
  | .aslZp b1 => some (.zp b1)
  | .aslZpx b1 => some (.zpx b1)
  | .aslAbs addr => some (.abs addr)
  | .aslAbsx addr => some (.absx addr)
  | .lsrZp b1 => some (.zp b1)
  | .lsrZpx b1 => some (.zpx b1)
  | .lsrAbs addr => some (.abs addr)
  | .lsrAbsx addr => some (.absx addr)
  | .rolZp b1 => some (.zp b1)
  | .rolZpx b1 => some (.zpx b1)
  | .rolAbs addr => some (.abs addr)
  | .rolAbsx addr => some (.absx addr)
  | .rorZp b1 => some (.zp b1)
  | .rorZpx b1 => some (.zpx b1)
  | .rorAbs addr => some (.abs addr)
  | .rorAbsx addr => some (.absx addr)
  | _ => none

/-- Does the form read the operand it stores to (R83)? -/
def readsBack : Instr → Bool
  | .incZp _ | .incZpx _ | .incAbs _ | .incAbsx _ | .decZp _ | .decZpx _ | .decAbs _ | .decAbsx _
  | .aslZp _ | .aslZpx _ | .aslAbs _ | .aslAbsx _ | .lsrZp _ | .lsrZpx _ | .lsrAbs _ | .lsrAbsx _
  | .rolZp _ | .rolZpx _ | .rolAbs _ | .rolAbsx _ | .rorZp _ | .rorZpx _ | .rorAbs _ | .rorAbsx _ => true
  | _ => false

/-- The numbers of stack bytes an instruction pushes (R201, R220, R222, R232). -/
def pushes : Instr → Nat
  | .jsr _ => 2
  | .pha => 1
  | .php => 1
  | .brk => 3
  | _ => 0

/-- The writers of `A` (R11). -/
def writesA : Instr → Bool
  | .ldaImm _ | .ldaZp _ | .ldaZpx _ | .ldaAbs _ | .ldaAbsx _ | .ldaAbsy _ | .ldaIzx _ | .ldaIzy _
  | .txa | .tya | .pla | .adcImm _ | .adcZp _ | .adcZpx _ | .adcAbs _ | .adcAbsx _ | .adcAbsy _
  | .adcIzx _ | .adcIzy _ | .sbcImm _ | .sbcZp _ | .sbcZpx _ | .sbcAbs _ | .sbcAbsx _ | .sbcAbsy _
  | .sbcIzx _ | .sbcIzy _ | .andImm _ | .andZp _ | .andZpx _ | .andAbs _ | .andAbsx _ | .andAbsy _
  | .andIzx _ | .andIzy _ | .oraImm _ | .oraZp _ | .oraZpx _ | .oraAbs _ | .oraAbsx _ | .oraAbsy _
  | .oraIzx _ | .oraIzy _ | .eorImm _ | .eorZp _ | .eorZpx _ | .eorAbs _ | .eorAbsx _ | .eorAbsy _
  | .eorIzx _ | .eorIzy _ | .aslAcc | .lsrAcc | .rolAcc | .rorAcc => true
  | _ => false

/-- The writers of `X` (R12). -/
def writesX : Instr → Bool
  | .ldxImm _ | .ldxZp _ | .ldxZpy _ | .ldxAbs _ | .ldxAbsy _ | .tax | .tsx | .inx | .dex => true
  | _ => false

/-- The writers of `Y` (R13). -/
def writesY : Instr → Bool
  | .ldyImm _ | .ldyZp _ | .ldyZpx _ | .ldyAbs _ | .ldyAbsx _ | .tay | .iny | .dey => true
  | _ => false

/-- The instructions that write `SP` (R14): TXS and every instruction that pushes or pulls. -/
def writesSp : Instr → Bool
  | .txs | .pha | .pla | .php | .plp | .jsr _ | .rts | .brk | .rti => true
  | _ => false

/-- The writers of `P.C` (R21). -/
def writesC : Instr → Bool
  | .adcImm _ | .adcZp _ | .adcZpx _ | .adcAbs _ | .adcAbsx _ | .adcAbsy _ | .adcIzx _ | .adcIzy _
  | .sbcImm _ | .sbcZp _ | .sbcZpx _ | .sbcAbs _ | .sbcAbsx _ | .sbcAbsy _ | .sbcIzx _ | .sbcIzy _
  | .cmpImm _ | .cmpZp _ | .cmpZpx _ | .cmpAbs _ | .cmpAbsx _ | .cmpAbsy _ | .cmpIzx _ | .cmpIzy _
  | .cpxImm _ | .cpxZp _ | .cpxAbs _ | .cpyImm _ | .cpyZp _ | .cpyAbs _ | .aslAcc | .aslZp _
  | .aslZpx _ | .aslAbs _ | .aslAbsx _ | .lsrAcc | .lsrZp _ | .lsrZpx _ | .lsrAbs _ | .lsrAbsx _
  | .rolAcc | .rolZp _ | .rolZpx _ | .rolAbs _ | .rolAbsx _ | .rorAcc | .rorZp _ | .rorZpx _
  | .rorAbs _ | .rorAbsx _ | .clc | .sec | .plp | .rti => true
  | _ => false

/-- The writers of `P.Z` and of `P.N` (R21). -/
def writesZN : Instr → Bool
  | .ldaImm _ | .ldaZp _ | .ldaZpx _ | .ldaAbs _ | .ldaAbsx _ | .ldaAbsy _ | .ldaIzx _ | .ldaIzy _
  | .ldxImm _ | .ldxZp _ | .ldxZpy _ | .ldxAbs _ | .ldxAbsy _ | .ldyImm _ | .ldyZp _ | .ldyZpx _
  | .ldyAbs _ | .ldyAbsx _ | .tax | .tay | .txa | .tya | .tsx | .pla | .adcImm _ | .adcZp _
  | .adcZpx _ | .adcAbs _ | .adcAbsx _ | .adcAbsy _ | .adcIzx _ | .adcIzy _ | .sbcImm _ | .sbcZp _
  | .sbcZpx _ | .sbcAbs _ | .sbcAbsx _ | .sbcAbsy _ | .sbcIzx _ | .sbcIzy _ | .andImm _ | .andZp _
  | .andZpx _ | .andAbs _ | .andAbsx _ | .andAbsy _ | .andIzx _ | .andIzy _ | .oraImm _ | .oraZp _
  | .oraZpx _ | .oraAbs _ | .oraAbsx _ | .oraAbsy _ | .oraIzx _ | .oraIzy _ | .eorImm _ | .eorZp _
  | .eorZpx _ | .eorAbs _ | .eorAbsx _ | .eorAbsy _ | .eorIzx _ | .eorIzy _ | .incZp _ | .incZpx _
  | .incAbs _ | .incAbsx _ | .decZp _ | .decZpx _ | .decAbs _ | .decAbsx _ | .inx | .iny | .dex
  | .dey | .aslAcc | .aslZp _ | .aslZpx _ | .aslAbs _ | .aslAbsx _ | .lsrAcc | .lsrZp _
  | .lsrZpx _ | .lsrAbs _ | .lsrAbsx _ | .rolAcc | .rolZp _ | .rolZpx _ | .rolAbs _ | .rolAbsx _
  | .rorAcc | .rorZp _ | .rorZpx _ | .rorAbs _ | .rorAbsx _ | .cmpImm _ | .cmpZp _ | .cmpZpx _
  | .cmpAbs _ | .cmpAbsx _ | .cmpAbsy _ | .cmpIzx _ | .cmpIzy _ | .cpxImm _ | .cpxZp _ | .cpxAbs _
  | .cpyImm _ | .cpyZp _ | .cpyAbs _ | .bitZp _ | .bitAbs _ | .plp | .rti => true
  | _ => false

/-- The writers of `P.I` among the instructions (R20). -/
def writesI : Instr → Bool
  | .sei | .cli | .brk | .plp | .rti => true
  | _ => false

/-- The writers of `P.D` (R19). -/
def writesD : Instr → Bool
  | .sed | .cld | .plp | .rti => true
  | _ => false

/-- The writers of `P.V` (R21). -/
def writesV : Instr → Bool
  | .adcImm _ | .adcZp _ | .adcZpx _ | .adcAbs _ | .adcAbsx _ | .adcAbsy _ | .adcIzx _ | .adcIzy _
  | .sbcImm _ | .sbcZp _ | .sbcZpx _ | .sbcAbs _ | .sbcAbsx _ | .sbcAbsy _ | .sbcIzx _ | .sbcIzy _
  | .bitZp _ | .bitAbs _ | .clv | .plp | .rti => true
  | _ => false

/-! ### Flags -/

/-- Every flag of `q` is what `w` gives for it, or as in `p` where `w` gives nothing. -/
def FlagsBecome (p q : Byte) (w : Flag → Option Bool) : Prop :=
  ∀ f, getFlag f q = (w f).getD (getFlag f p)

/-- `SetZN(r)` (R9). -/
def znOf (r : Byte) : Flag → Option Bool
  | .Z => some (decide (r.toNat = 0))
  | .N => some (decide (128 ≤ r.toNat))
  | _ => none

/-- C, then Z and N of `r`. -/
def cznOf (c : Bool) (r : Byte) : Flag → Option Bool
  | .C => some c
  | f => znOf r f

/-- C and V, then Z and N of `r`. -/
def cvznOf (c v : Bool) (r : Byte) : Flag → Option Bool
  | .V => some v
  | f => cznOf c r f

/-- C as given, if given, then Z and N of `r`. -/
def shiftOf (c : Option Bool) (r : Byte) : Flag → Option Bool
  | .C => c
  | f => znOf r f

/-- BIT (R168): Z from the and, N and V from bits 7 and 6 of the operand. -/
def bitOf (a m : Byte) : Flag → Option Bool
  | .Z => some (decide ((a &&& m).toNat = 0))
  | .N => some (m.getLsbD 7)
  | .V => some (m.getLsbD 6)
  | _ => none

/-- One flag. -/
def oneOf (g : Flag) (b : Bool) (f : Flag) : Option Bool := if f = g then some b else none

/-- The six flags PLP and RTI load (R223, R233). -/
def pulledOf (v : Byte) : Flag → Option Bool
  | .B => none
  | .U => none
  | f => some (getFlag f v)

/-! ### Instructions of one shape -/

/-- Every row of `form` is encoded as R120 says; on an operand that can be read it reads it once and ends
in a next state that `rel` relates to the byte read and the state after the read; on any other it faults
at `EA`. -/
def ReadsOperand (form : Instr → Option (Byte × Bool × Operand)) (rel : Byte → State → State → Prop) :
    Prop :=
  ∀ (i : Instr) (opc : Byte) (star : Bool) (o : Operand), form i = some (opc, star, o) →
    EncodedBy i opc star (operandBytes o) ∧
    (∀ s, OperandReadable o s →
      ∃ v u t, loadOperand o s = .ok v u ∧ exec i s = .next t ∧ rel v u t) ∧
    (∀ s m, o = .mem m → ¬ReadMapped (effAddr m s) → exec i s = .fault (.busFault (effAddr m s)))

/-- Every row of `form` is encoded as R120 says; where `EA` can be written it makes the one bus write of
the byte `src` of the state and nothing else; elsewhere it faults at `EA`. -/
def Stores (form : Instr → Option (Byte × Bool × MemMode)) (src : State → Byte) : Prop :=
  ∀ (i : Instr) (opc : Byte) (star : Bool) (m : MemMode), form i = some (opc, star, m) →
    EncodedBy i opc star (modeBytes m) ∧
    (∀ s, WriteMapped (effAddr m s) →
      ∃ t, memWrite (effAddr m s) (src s) s = .next t ∧ exec i s = .next t) ∧
    (∀ s, ¬WriteMapped (effAddr m s) → exec i s = .fault (.busFault (effAddr m s)))

/-- `i` modifies the byte at `EA`: one bus read, then one bus write of the same address, with the result and
the flags that `op` and `w` give from the byte read and the carry; where the read or the write faults, so
does `i`. -/
def ModifiesMemory (i : Instr) (m : MemMode) (op : Byte → Bool → Byte)
    (w : Byte → Byte → Flag → Option Bool) : Prop :=
  (∀ s, (effAddr m s).toNat < 0x4000 →
    ∃ v u q t, memRead (effAddr m s) s = .ok v u ∧
      FlagsBecome u.p q (w v (op v (getFlag .C u.p))) ∧
      memWrite (effAddr m s) (op v (getFlag .C u.p)) { u with p := q } = .next t ∧
      exec i s = .next t) ∧
  (∀ s, 0x4000 ≤ (effAddr m s).toNat → exec i s = .fault (.busFault (effAddr m s)))

/-- Every row of `form` is encoded as R120 says and modifies `A` (R104) or the byte at `EA` (R190). -/
def Modifies (form : Instr → Option (Byte × Bool × Target)) (op : Byte → Bool → Byte)
    (w : Byte → Byte → Flag → Option Bool) : Prop :=
  ∀ (i : Instr) (opc : Byte) (star : Bool) (x : Target), form i = some (opc, star, x) →
    EncodedBy i opc star (targetBytes x) ∧
    (x = .acc → ∀ s, ∃ q, FlagsBecome s.p q (w s.a (op s.a (getFlag .C s.p))) ∧
      exec i s = .next { s with a := op s.a (getFlag .C s.p), p := q }) ∧
    (∀ m, x = .mem m → ModifiesMemory i m op w)

/-- The same for a form that has memory modes only. -/
def ModifiesMem (form : Instr → Option (Byte × Bool × MemMode)) (op : Byte → Bool → Byte)
    (w : Byte → Byte → Flag → Option Bool) : Prop :=
  ∀ (i : Instr) (opc : Byte) (star : Bool) (m : MemMode), form i = some (opc, star, m) →
    EncodedBy i opc star (modeBytes m) ∧ ModifiesMemory i m op w

/-- ADC on the operand `m` (R160): the 9-bit sum, its bit 8 as C, the sign rule as V. -/
def AddsTo (m : Byte) (u t : State) : Prop :=
  let sum := u.a.toNat + m.toNat + (getFlag .C u.p).toNat
  let r : Byte := BitVec.ofNat 8 sum
  t = { u with a := r, p := t.p } ∧
  FlagsBecome u.p t.p (cvznOf (decide (256 ≤ sum)) (((u.a ^^^ r) &&& (m ^^^ r) &&& 0x80#8) != 0#8) r)

/-- A register compared with the operand `m` (R165 to R167). -/
def Compares (reg : State → Byte) (m : Byte) (u t : State) : Prop :=
  t = { u with p := t.p } ∧
  FlagsBecome u.p t.p (cznOf (decide (m.toNat ≤ (reg u).toNat)) (reg u - m))

/-- A register transfer or a register increment: encoded as `opc` alone, and in every state it gives the
state `result` with Z and N of the byte `v` and no other flag changed. -/
def RegisterOp (i : Instr) (opc : Byte) (v : State → Byte) (result : State → State) : Prop :=
  EncodedBy i opc false [] ∧
  ∀ s, ∃ q, FlagsBecome s.p q (znOf (v s)) ∧ exec i s = .next { result s with p := q }

/-! ### Stores, for the frames -/

/-- The bus addresses an instruction stores to: `EA` of a storing form, and the stack bytes it pushes. -/
def storedAt (i : Instr) (s : State) : List Addr :=
  ((storeMode i).map fun m => effAddr m s).toList ++
    ((List.range (pushes i)).map fun k => stackAddr (s.sp - BitVec.ofNat 8 k))

/-- The operand of an instruction that reads one and does not store to it. -/
def readOperand (i : Instr) : Option Operand :=
  let forms : List (Instr → Option (Byte × Bool × Operand)) :=
    [ldaForm, ldxForm, ldyForm, adcForm, sbcForm, andForm, oraForm, eorForm, cmpForm, cpxForm, cpyForm]
  (forms.findSome? fun form => (form i).map fun r => r.2.2).or ((bitForm i).map fun r => .mem r.2.2)

/-- The bus addresses of an instruction's data accesses: `EA`, and the pointer bytes of JMP indirect. -/
def accessed (i : Instr) (s : State) : List Addr :=
  match i with
  | .jmpInd addr => [addr, pair (hiByte addr) (loByte addr + 1)]
  | i =>
    (match readOperand i with
      | some (.mem m) => [effAddr m s]
      | some (.imm _) => []
      | none => []) ++
    ((storeMode i).map fun m => effAddr m s).toList

/-- The instruction accesses a PPU port (R54). -/
def TouchesPort (i : Instr) (s : State) : Prop := ∃ a ∈ accessed i s, 0x2000 ≤ a.toNat ∧ a.toNat < 0x4000

/-- The instruction stores to the RAM byte that address `a` reaches (R53). -/
def StoresToRam (i : Instr) (s : State) (a : Addr) : Prop :=
  ∃ w ∈ storedAt i s, w.toNat < 0x2000 ∧ ramIndex w = ramIndex a

/-- The instruction stores to the PPU port `n` (R54). -/
def StoresToPort (i : Instr) (s : State) (n : Port) : Prop :=
  ∃ w ∈ storedAt i s, 0x2000 ≤ w.toNat ∧ w.toNat < 0x4000 ∧ portOf w = n

/-- The VRAM latch as a data-port store finds it: a read-modify-write has moved it once already (R377). -/
def vramStoreIndex (i : Instr) (s : State) : Nat :=
  (if readsBack i then s.ppu.v + vramInc s.ppu else s.ppu.v).toNat % Config.vramSize

/-! ### The opcode map -/

/-- The 105 unassigned opcode bytes (R121). -/
def unassigned : List Byte :=
  [ 0x02#8, 0x03#8, 0x04#8, 0x07#8, 0x0B#8, 0x0C#8, 0x0F#8, 0x12#8, 0x13#8, 0x14#8, 0x17#8, 0x1A#8, 0x1B#8, 0x1C#8 ] ++
  [ 0x1F#8, 0x22#8, 0x23#8, 0x27#8, 0x2B#8, 0x2F#8, 0x32#8, 0x33#8, 0x34#8, 0x37#8, 0x3A#8, 0x3B#8, 0x3C#8, 0x3F#8 ] ++
  [ 0x42#8, 0x43#8, 0x44#8, 0x47#8, 0x4B#8, 0x4F#8, 0x52#8, 0x53#8, 0x54#8, 0x57#8, 0x5A#8, 0x5B#8, 0x5C#8, 0x5F#8 ] ++
  [ 0x62#8, 0x63#8, 0x64#8, 0x67#8, 0x6B#8, 0x6F#8, 0x72#8, 0x73#8, 0x74#8, 0x77#8, 0x7A#8, 0x7B#8, 0x7C#8, 0x7F#8 ] ++
  [ 0x80#8, 0x82#8, 0x83#8, 0x87#8, 0x89#8, 0x8B#8, 0x8F#8, 0x92#8, 0x93#8, 0x97#8, 0x9B#8, 0x9C#8, 0x9E#8, 0x9F#8 ] ++
  [ 0xA3#8, 0xA7#8, 0xAB#8, 0xAF#8, 0xB2#8, 0xB3#8, 0xB7#8, 0xBB#8, 0xBF#8, 0xC2#8, 0xC3#8, 0xC7#8, 0xCB#8, 0xCF#8 ] ++
  [ 0xD2#8, 0xD3#8, 0xD4#8, 0xD7#8, 0xDA#8, 0xDB#8, 0xDC#8, 0xDF#8, 0xE2#8, 0xE3#8, 0xE7#8, 0xEB#8, 0xEF#8, 0xF2#8 ] ++
  [ 0xF3#8, 0xF4#8, 0xF7#8, 0xFA#8, 0xFB#8, 0xFC#8, 0xFF#8 ]

/-- The 20 opcode bytes of the extension profile (R122). -/
def extensionOnly : List Byte :=
  [ 0x11#8, 0x19#8, 0x31#8, 0x39#8, 0x51#8, 0x59#8, 0x6C#8, 0x71#8, 0x79#8, 0x91#8,
    0x96#8, 0x99#8, 0xB1#8, 0xB6#8, 0xB9#8, 0xBE#8, 0xD1#8, 0xD9#8, 0xF1#8, 0xF9#8 ]

/-! ### Halts, DMA and launch -/

/-- The step from `s` leaves a halted machine whose VRAM latch, toggle and other PPU registers and counters are
those of `u`: the accesses that led to `u` have been performed, with their side effects, and no tick (R322,
R324). -/
def HaltedAfter (s u : State) : Prop :=
  ∃ t, haltedState s = some t ∧
    t.ppu = { u.ppu with oam := t.ppu.oam, vram := t.ppu.vram } ∧ t.nmiPending = u.nmiPending

/-- The OAM index of the `k`-th transfer of a DMA (R274). -/
def oamEntry (s : State) (k : Nat) : Nat := (s.ppu.oamAddr.toNat + k) % 256

/-- What an iteration makes of the outcome of its CPU step (R301). -/
def afterCpuStep : Outcome → Outcome
  | .next t => .next (deliverNmi (tick (tick (tick t))))
  | .fault f => .fault f
  | .refused r => .refused r

/-- A cartridge image that `parse` and the preconditions of R69 accept (R65 to R69). -/
def ImageOk (raw : List Byte) : Prop :=
  16 + (raw.getD 4 0).toNat * 16384 + (raw.getD 5 0).toNat * 8192 ≤ raw.length ∧
  raw.take 4 = [0x4E#8, 0x45#8, 0x53#8, 0x1A#8] ∧
  (raw.getD 4 0).toNat ∈ [1, 2, 4, 8, 16, 32, 64, 128]

/-- The mapper number of an image (R66). -/
def imageMapper (raw : List Byte) : Byte := (raw.getD 6 0 >>> 4) ||| (raw.getD 7 0 &&& 0xF0#8)

/-- The PRG bytes of an image as the file has them (R66). -/
def imagePrg (raw : List Byte) : List Byte := (raw.drop 16).take ((raw.getD 4 0).toNat * 16384)

/-- The PPU at power-on with the control register holding `c`, after `n` dots. -/
def dotsFrom (c : Byte) (n : Nat) : Ppu := advanceDot^[n] { Ppu.powerOn with ctrl := c }

end Sys2Proof.Forms

open Sys2Proof Sys2Proof.Machine Sys2Proof.Forms

/-! ### Reset and launch -/

/-- Tier 1, derived (R38, R360, R361; log entries 1 to 4 are the model's choices and nothing here rests on
them). The values the spec gives for the state after reset. -/
def Obligations.ResetLeavesSpecValues : Prop :=
  State.reset.a = 0 ∧ State.reset.x = 0 ∧ State.reset.y = 0 ∧ State.reset.sp = 0 ∧ State.reset.p = 0x24 ∧
  State.reset.pc = readVector Config.resetVector State.reset ∧
  State.reset.nmiPending = false ∧ State.reset.halted = none ∧ State.reset.stopRequested = false ∧
  State.reset.ppu.ctrl = 0 ∧ State.reset.ppu.mask = 0 ∧ State.reset.ppu.status = 0 ∧
  State.reset.ppu.w = false ∧ State.reset.ppu.v = 0 ∧ State.reset.ppu.scrollX = 0 ∧
  State.reset.ppu.scrollY = 0 ∧ State.reset.ppu.oamAddr = 0 ∧ State.reset.ppu.x = 0 ∧
  State.reset.ppu.y = 0 ∧ State.reset.ppu.cycle = 0

/-- Tier 1, stated (R361). `reset()` reads the two vector bytes over the bus, which never faults, and writes
`PC` and `P` and nothing else. The host's action on a machine that has not halted is this operation. -/
def Obligations.ResetOperationWritesPcAndP : Prop :=
  ∀ s : State, ∃ lo hi q,
    memRead 0xFFFC#16 s = .ok lo s ∧ memRead 0xFFFD#16 s = .ok hi s ∧
    FlagsBecome s.p q (fun f => if f = .I ∨ f = .U then some true else none) ∧
    resetCpu s = { s with pc := pair hi lo, p := q } ∧
    (s.halted = none → hostAct .resetCpu s = .next { s with pc := pair hi lo, p := q })

/-- Tier 1, derived (R304). The host's stop request sets its one bit and nothing else, and the next iteration
ends the run with `Stopped`. -/
def Obligations.RequestStopSetsOneBit : Prop :=
  ∀ s : State, s.halted = none →
    hostAct .requestStop s = .next { s with stopRequested := true } ∧
    step { s with stopRequested := true } = .refused .stopped ∧
    runEnd (step { s with stopRequested := true }) = some .stopped

/-- Tier 1, derived (R17, R18, R22, R26, R30, R37, R38). The invariant holds at reset. The blank cartridge and
the empty arrays there are the model's choices (log entries 1 and 2). -/
def Obligations.ResetMeetsInvariant : Prop := State.reset.Inv

/-- Tier 3, derived (R17, R18, R22, R26, R30, R37, R261, R262). Every step keeps the invariant: the byte arrays
stay canonical and within their sizes, the PPU counters in range and where the cycle count says, the vblank bit
set exactly on lines 241 to 260 with the other status bits 0, `P.U = 1`, `P.B = 0`, and no NMI is pending
between iterations. -/
def Obligations.StepKeepsInvariant : Prop :=
  ∀ s t : State, s.Inv → step s = .next t → t.Inv

/-- Tier 2, derived (R305). So does every action of the host between iterations. -/
def Obligations.HostActionsKeepInvariant : Prop :=
  ∀ (act : HostAction) (s t : State), s.Inv → hostAct act s = .next t → t.Inv

/-- Tier 2, derived (R363, R26, R69). Every launch that succeeds gives a state that meets the invariant. -/
def Obligations.LaunchMeetsInvariant : Prop :=
  ∀ (prm : LaunchParams) (s : State), launch prm = .next s → s.Inv

/-- Tier 2, derived (R26, R38, R65 to R67, R360 to R363). An accepted image launches, with every register, latch
and counter of R38, the arrays as the parameters give them, the cartridge of R65 to R67, and the overrides. -/
def Obligations.LaunchGivesInitialState : Prop :=
  ∀ prm : LaunchParams, ImageOk prm.image → imageMapper prm.image = 0 ∨ imageMapper prm.image = 1 →
    ∃ s, launch prm = .next s ∧
      (s.a = 0 ∧ s.x = 0 ∧ s.y = 0 ∧ s.sp = prm.spOverride.getD 0 ∧ s.p = 0x24 ∧
        s.pc = prm.pcOverride.getD (readVector Config.resetVector s)) ∧
      ((∀ k : Fin Config.ramSize, s.ram.read k = prm.ramInit[k]) ∧
        (∀ k : Fin Config.vramSize, s.ppu.vram.read k = prm.vramInit[k]) ∧
        ∀ k : Fin Config.oamSize, s.ppu.oam.read k = prm.oamInit[k]) ∧
      (s.cart.mapper = (if imageMapper prm.image = 0 then .mapper0 else .mapper1) ∧
        s.cart.header =
          { prgCount := prm.image.getD 4 0, chrCount := prm.image.getD 5 0, flags6 := prm.image.getD 6 0
            flags7 := prm.image.getD 7 0, prgRamCount := prm.image.getD 8 0, flags9 := prm.image.getD 9 0
            flags10 := prm.image.getD 10 0 } ∧
        s.cart.prgLen = max 32768 ((prm.image.getD 4 0).toNat * 16384) ∧
        (∀ k, k < s.cart.prgLen →
          s.cart.prg.read k = (imagePrg prm.image).getD (k % ((prm.image.getD 4 0).toNat * 16384)) 0) ∧
        s.cart.chrLen = (prm.image.getD 5 0).toNat * 8192 ∧
        ∀ k, k < s.cart.chrLen →
          s.cart.chr.read k = prm.image.getD (16 + (prm.image.getD 4 0).toNat * 16384 + k) 0) ∧
      (s.ppu.ctrl = 0 ∧ s.ppu.mask = 0 ∧ s.ppu.status = 0 ∧ s.ppu.w = false ∧ s.ppu.v = 0 ∧
        s.ppu.scrollX = 0 ∧ s.ppu.scrollY = 0 ∧ s.ppu.oamAddr = 0 ∧
        s.ppu.cycle = 0 ∧ s.ppu.x = 0 ∧ s.ppu.y = 0) ∧
      s.nmiPending = false ∧ s.halted = none ∧ s.stopRequested = false ∧
      s.extModes = prm.extModes ∧ s.statusReadClearsW = prm.statusReadClearsW

/-- Tier 2, stated (R68). `parse` fails with `FormatError` on an image shorter than the header or than its
declared PRG and CHR, and no cartridge is produced. -/
def Obligations.ShortImageIsFormatError : Prop :=
  ∀ raw : List Byte,
    raw.length < 16 ∨
      raw.length < 16 + (raw.getD 4 0).toNat * 16384 + (raw.getD 5 0).toNat * 8192 →
    parse raw = .error .formatError

/-- Tier 2, derived (R64, R69, R70). Every other launch is refused: with `FormatError` for a wrong tag or PRG
count, with `UnsupportedMapperError` for a mapper other than 0 and 1; there is no other outcome. -/
def Obligations.LaunchRefusals : Prop :=
  ∀ prm : LaunchParams,
    (¬ImageOk prm.image → launch prm = .refused .formatError) ∧
    (ImageOk prm.image → imageMapper prm.image ≠ 0 → imageMapper prm.image ≠ 1 →
      launch prm = .refused (.unsupportedMapper (imageMapper prm.image)))

/-! ### Decoding -/

/-- Tier 3, derived (R100, R119, R120). Decoding the bytes of a well-formed instruction gives it back, with
every operand, whatever bytes follow. -/
def Obligations.DecodeUndoesEncode : Prop :=
  ∀ (e : Bool) (i : Instr) (rest : List Byte), WellFormed e i → decode e (encode i ++ rest) = .ok (i, rest)

/-- Tier 2, derived (R100, R120). Bytes that decode are the encoding of a well-formed instruction. -/
def Obligations.EncodeUndoesDecode : Prop :=
  ∀ (e : Bool) (bs rest : List Byte) (i : Instr), decode e bs = .ok (i, rest) →
    WellFormed e i ∧ bs = encode i ++ rest

/-- Tier 1, derived (R120 to R122, R124). Every opcode byte has a row or is `Unknown`: the 105 bytes of R121 in
both profiles, and the 20 of R122 besides when `EXT_MODES` is false. -/
def Obligations.OpcodeMapIsTotal : Prop :=
  ∀ opc : Byte,
    ((lookup true opc).isNone = true ↔ opc ∈ unassigned) ∧
    ((lookup false opc).isNone = true ↔ opc ∈ unassigned ∨ opc ∈ extensionOnly)

/-- Tier 1, derived (R105 to R112, R119). Words written out from the spec, one for each family. -/
def Obligations.HandEncodedWordsDecode : Prop :=
  decode false [0xA9#8, 0x05#8] = .ok (.ldaImm 0x05#8, []) ∧
  decode false [0xBD#8, 0xFF#8, 0x02#8] = .ok (.ldaAbsx 0x02FF#16, []) ∧
  decode false [0x61#8, 0x10#8] = .ok (.adcIzx 0x10#8, []) ∧
  decode false [0x2A#8] = .ok (.rolAcc, []) ∧
  decode false [0x20#8, 0x34#8, 0x12#8] = .ok (.jsr 0x1234#16, []) ∧
  decode false [0xD0#8, 0xF9#8] = .ok (.bne 0xF9#8, []) ∧
  decode false [0x40#8] = .ok (.rti, []) ∧
  decode true [0x6C#8, 0xFF#8, 0x02#8] = .ok (.jmpInd 0x02FF#16, []) ∧
  decode false [0xB1#8, 0x10#8] = .error (.unknown 0xB1#8)

/-- Tier 2, derived (R121, R323, R324; log entry 5). An unassigned opcode byte decodes to `Unknown`, and fetching
one ends the step with `UnimplementedInstruction`, `PC` still at the byte and no register changed (R121, R323).
That the halted state is in every other field too the one after the opcode read is the model's reading of the
one bus read of R323, marked DEDUCED in log entry 5. -/
def Obligations.UnassignedOpcodeFaults : Prop :=
  ∀ opc : Byte, opc ∈ unassigned →
    (∀ (e : Bool) (rest : List Byte), decode e (opc :: rest) = .error (.unknown opc)) ∧
    (∀ s u : State, Running s → memRead s.pc s = .ok opc u →
      step s = .fault (.unimplementedInstruction opc) ∧
      haltedState s = some { u with halted := some (.unimplementedInstruction opc) } ∧
      u.pc = s.pc ∧ u.a = s.a ∧ u.x = s.x ∧ u.y = s.y ∧ u.sp = s.sp ∧ u.p = s.p)

/-! ### The step and the coordinator -/

/-- Tier 1, derived (R101, R301). When the bytes at `PC` are read over the bus and decode to an instruction,
the step is that instruction with `PC` past it, then three ticks and NMI delivery; a fault ends the step as
it is. -/
def Obligations.StepRunsDecodedInstruction : Prop :=
  ∀ (s u : State) (bs : List Byte) (i : Instr), Running s →
    readBytes bs.length s.pc s = .ok bs u → decode s.extModes bs = .ok (i, []) →
    step s = afterCpuStep (exec i (u.setPc (s.pc + BitVec.ofNat 16 bs.length)))

/-- Tier 2, derived (R57, R101, R122, R322, R323, decision D1; log entry 5 for the state left). When a fetch faults: the opcode byte at an unmapped
address; an extension opcode with `EXT_MODES = false`; the first operand byte at an unmapped address; and the
second, which is the first one to lie there only behind an opcode byte at 0x3FFE, whose value is a draw (log
entry 3), whatever the draw. The reads before the faulting one have been performed. -/
def Obligations.FetchFaults : Prop :=
  (∀ s : State, Running s → ¬ReadMapped s.pc → step s = .fault (.busFault s.pc)) ∧
  (∀ (opc : Byte) (s u : State), Running s → memRead s.pc s = .ok opc u →
    opc ∈ extensionOnly → s.extModes = false →
    step s = .fault (.unimplementedInstruction opc) ∧
    haltedState s = some { u with halted := some (.unimplementedInstruction opc) } ∧ u.pc = s.pc) ∧
  (∀ (s u : State) (opc : Byte) (form : Form), Running s → memRead s.pc s = .ok opc u →
    lookup s.extModes opc = some form → 2 ≤ form.length → ¬ReadMapped (s.pc + 1) →
    step s = .fault (.busFault (s.pc + 1)) ∧ HaltedAfter s u) ∧
  (∀ s : State, Running s → s.pc = 0x3FFE#16 →
    ∃ opc b u w, memRead 0x3FFE#16 s = .ok opc u ∧ memRead 0x3FFF#16 u = .ok b w ∧
      ∀ form, lookup s.extModes opc = some form → form.length = 3 →
        step s = .fault (.busFault 0x4000#16) ∧ HaltedAfter s w)

/-- Tier 2, derived (R263, R301, R303, R331). What follows a CPU step that leaves the state `v`: three dots,
at most one of which meets the NMI condition, and exactly then the NMI entry, from the state after the third
dot. -/
def Obligations.NmiDeliveredAfterThirdTick : Prop :=
  ∀ (s u v : State) (i : Instr), Running s → fetch s = .ok i u → exec i u = .next v →
    v.nmiPending = false →
    let q1 := advanceDot v.ppu
    let q2 := advanceDot q1
    let q3 := advanceDot q2
    step s = .next
      (if nmiCondition q1 || nmiCondition q2 || nmiCondition q3 then nmiEntry { v with ppu := q3 }
        else { v with ppu := q3 }) ∧
    (nmiCondition q1).toNat + (nmiCondition q2).toNat + (nmiCondition q3).toNat ≤ 1

/-- Tier 2, derived (R22, R26, R36, R301, R380). Every step that goes on advances the PPU by exactly three
dots, leaves no NMI pending, and changes neither the cartridge nor a launch parameter nor the host's
latches. -/
def Obligations.StepAdvancesPpuByThree : Prop :=
  ∀ s t : State, step s = .next t →
    t.ppu.cycle = s.ppu.cycle + 3 ∧
    (t.ppu.x, t.ppu.y) =
      ((advanceDot (advanceDot (advanceDot s.ppu))).x, (advanceDot (advanceDot (advanceDot s.ppu))).y) ∧
    t.nmiPending = false ∧ t.cart = s.cart ∧ t.extModes = s.extModes ∧
    t.statusReadClearsW = s.statusReadClearsW ∧ t.halted = none ∧ t.stopRequested = false

/-- Tier 1, stated (R301). One iteration: a stop request seen at the top ends the run; a fault of the CPU step
ends it with that fault, which `halted` then holds; a successful step is followed by exactly three ticks and
then by the delivery of a pending NMI. -/
def Obligations.IterationOrder : Prop :=
  ∀ s : State, s.halted = none →
    (s.stopRequested = true → step s = .refused .stopped ∧ runEnd (step s) = some .stopped) ∧
    (s.stopRequested = false → ∀ f, cpuStep s = .fault f →
      step s = .fault f ∧ runEnd (step s) = some (.halted f) ∧
        (haltedState s).map State.halted = some (some f)) ∧
    (s.stopRequested = false → ∀ v, cpuStep s = .next v →
      step s = .next
        (if (tick (tick (tick v))).nmiPending then nmiEntry { tick (tick (tick v)) with nmiPending := false }
          else tick (tick (tick v))))

/-- Tier 2, derived (R6, R23, R322, R324, decision D20; log entries 5, 11 and 12). A step or a host action that
faults leaves a halted machine; a halted machine answers its fault for ever, to a step and to every host
action, which leave it as it is. A faulting step has made no tick and delivered no NMI; where its fetch had
succeeded, the reads of the fetch have been performed. -/
def Obligations.HaltIsFinal : Prop :=
  (∀ (s : State) (f : Fault), step s = .fault f →
    ∃ t, haltedState s = some t ∧ t.halted = some f ∧
      (t.ppu.cycle = s.ppu.cycle ∧ t.ppu.x = s.ppu.x ∧ t.ppu.y = s.ppu.y ∧ t.nmiPending = s.nmiPending)) ∧
  (∀ (s u : State) (i : Instr) (f : Fault), Running s → fetch s = .ok i u → exec i u = .fault f →
    step s = .fault f ∧ HaltedAfter s u) ∧
  (∀ (act : HostAction) (s : State) (f : Fault), hostAct act s = .fault f →
    ∃ t, hostHaltedState act s = some t ∧ t.halted = some f) ∧
  (∀ (s : State) (f : Fault), s.halted = some f →
    step s = .fault f ∧ haltedState s = some s ∧
    ∀ act, hostAct act s = .fault f ∧ hostHaltedState act s = some s)

/-! ### The memory bus -/

/-- Tier 2, stated (R55, R57). The complete list of faulting accesses; the fault carries the address, and a
faulting read is not performed. A write to 0x4017 is accepted and changes nothing. -/
def Obligations.BusFaultsExactly : Prop :=
  (∀ (v : Byte) (s : State), memWrite 0x4017#16 v s = .next s) ∧
  ∀ (a : Addr) (v : Byte) (s : State) (f : Fault),
    (∀ u, memRead a s = .fault f u ↔
      (0x4000 ≤ a.toNat ∧ a.toNat < 0x8000) ∧ f = .busFault a ∧ u = s) ∧
    (memWrite a v s = .fault f ↔
      ((0x4000 ≤ a.toNat ∧ a ≠ 0x4017#16 ∧ a.toNat < 0x8000) ∨ 0x8000 ≤ a.toNat) ∧ f = .busFault a)

/-- Tier 2, stated (R53). A write through one RAM mirror is read back through every mirror, and every other
RAM byte reads as before; neither access has another effect. -/
def Obligations.RamMirrors : Prop :=
  ∀ (a b : Addr) (v : Byte) (s : State), a.toNat < 0x2000 → b.toNat < 0x2000 →
    ∃ t, memWrite a v s = .next t ∧ t = { s with ram := t.ram } ∧
      memRead b t = .ok (if b.toNat % 0x800 = a.toNat % 0x800 then v else s.ram.read (b.toNat % 0x800)) t

/-- Tier 2, stated (R54). Every address of the port window is a mirror of the port at `addr mod 8`. -/
def Obligations.PortMirrors : Prop :=
  ∀ (a : Addr) (v : Byte) (s : State), 0x2000 ≤ a.toNat → a.toNat < 0x4000 →
    memRead a s = memRead (0x2000#16 + BitVec.ofNat 16 (a.toNat % 8)) s ∧
    memWrite a v s = memWrite (0x2000#16 + BitVec.ofNat 16 (a.toNat % 8)) v s

/-- Tier 2, stated (R61, R62). Address translation of both mappers, as the byte a cartridge read returns. -/
def Obligations.MapperTranslation : Prop :=
  ∀ (a : Addr) (s : State), 0x8000 ≤ a.toNat →
    (s.cart.mapper = .mapper0 → a.toNat ≤ 0xBFFF →
      memRead a s = .ok (s.cart.prg.read (a.toNat - 0x8000)) s) ∧
    (s.cart.mapper = .mapper0 → 0xC000 ≤ a.toNat →
      memRead a s = .ok (s.cart.prg.read ((s.cart.prgLen - 0x4000) + (a.toNat - 0xC000))) s) ∧
    (s.cart.mapper = .mapper1 → memRead a s = .ok (s.cart.prg.read ((a.toNat - 0x8000) % 0x4000)) s)

/-- Tier 2, derived (R107, R265, R267, R268, R271). Reading an operand: an immediate value is itself; a memory
operand is the bus read at `EA`, which changes at most the VRAM latch, the toggle and the model's count of
draws. -/
def Obligations.OperandReadFrame : Prop :=
  (∀ (v : Byte) (s : State), loadOperand (.imm v) s = .ok v s) ∧
  (∀ (m : MemMode) (s u : State) (v : Byte), loadOperand (.mem m) s = .ok v u →
    memRead (effAddr m s) s = .ok v u ∧
    u = { s with ppu := { s.ppu with v := u.ppu.v, w := u.ppu.w }, draws := u.draws } ∧
    (¬(0x2000 ≤ (effAddr m s).toNat ∧ (effAddr m s).toNat < 0x4000) → u = s))

/-- Tier 2, derived (R106, R108 to R110, R112, R114, R115, R117, R9; G3, G7, G8). The effective address of every
memory mode as a number, with its wrap; the two pointer bytes come from page zero. -/
def Obligations.EffectiveAddresses : Prop :=
  ∀ (b1 : Byte) (addr : Addr) (s : State),
    (effAddr (.zp b1) s).toNat = b1.toNat ∧
    (effAddr (.zpx b1) s).toNat = (b1.toNat + s.x.toNat) % 0x100 ∧
    (effAddr (.zpy b1) s).toNat = (b1.toNat + s.y.toNat) % 0x100 ∧
    effAddr (.abs addr) s = addr ∧
    (effAddr (.absx addr) s).toNat = (addr.toNat + s.x.toNat) % 0x10000 ∧
    (effAddr (.absy addr) s).toNat = (addr.toNat + s.y.toNat) % 0x10000 ∧
    (effAddr (.izx b1) s).toNat =
      (s.ram.read ((b1.toNat + s.x.toNat + 1) % 0x100)).toNat * 256
        + (s.ram.read ((b1.toNat + s.x.toNat) % 0x100)).toNat ∧
    (effAddr (.izy b1) s).toNat =
      ((s.ram.read ((b1.toNat + 1) % 0x100)).toNat * 256 + (s.ram.read b1.toNat).toNat + s.y.toNat)
        % 0x10000

/-! ### Load, store, transfer -/

/-- Tier 1, derived (R141 to R143; G1, G2). LDA, LDX, LDY: every row, the register, Z and N, the fault. -/
def Obligations.LoadsLoad : Prop :=
  ReadsOperand ldaForm (fun v u t => t = { u with a := v, p := t.p } ∧ FlagsBecome u.p t.p (znOf v)) ∧
  ReadsOperand ldxForm (fun v u t => t = { u with x := v, p := t.p } ∧ FlagsBecome u.p t.p (znOf v)) ∧
  ReadsOperand ldyForm (fun v u t => t = { u with y := v, p := t.p } ∧ FlagsBecome u.p t.p (znOf v))

/-- Tier 1, derived (R144 to R146; G1, G2). STA, STX, STY: every row, the one write, no flag, the fault. -/
def Obligations.StoresStore : Prop :=
  Stores staForm State.a ∧ Stores stxForm State.x ∧ Stores styForm State.y

/-- Tier 1, derived (R147 to R152; G1, G2). The transfers; TXS writes no flag. -/
def Obligations.TransfersTransfer : Prop :=
  RegisterOp .tax 0xAA#8 State.a (fun s => { s with x := s.a }) ∧
  RegisterOp .tay 0xA8#8 State.a (fun s => { s with y := s.a }) ∧
  RegisterOp .txa 0x8A#8 State.x (fun s => { s with a := s.x }) ∧
  RegisterOp .tya 0x98#8 State.y (fun s => { s with a := s.y }) ∧
  RegisterOp .tsx 0xBA#8 State.sp (fun s => { s with x := s.sp }) ∧
  EncodedBy .txs 0x9A#8 false [] ∧ (∀ s, exec .txs s = .next { s with sp := s.x })

/-! ### Arithmetic and logic -/

/-- Tier 1, derived (R160, R161; G1; decision D3 for the decimal flag, which is not read). ADC and SBC: every row,
the sum, the four flags, the fault; SBC adds the complemented operand. -/
def Obligations.AdcSbcCompute : Prop :=
  ReadsOperand adcForm AddsTo ∧ ReadsOperand sbcForm (fun m u t => AddsTo (m ^^^ 0xFF#8) u t)

/-- Tier 2, derived (R175). The reading of R160 in integers: V is set exactly when the signed sum does not
fit, and for SBC when the signed difference does not; C after SBC is the absence of a borrow. -/
def Obligations.OverflowIsSignedOverflow : Prop :=
  ∀ (a m p : Byte),
    ((adcSum a m p).overflow = true ↔
      a.toInt + m.toInt + (getFlag .C p).toNat < -128 ∨ 127 < a.toInt + m.toInt + (getFlag .C p).toNat) ∧
    ((sbcSum a m p).overflow = true ↔
      a.toInt - m.toInt - (1 - (getFlag .C p).toNat) < -128 ∨
        127 < a.toInt - m.toInt - (1 - (getFlag .C p).toNat)) ∧
    ((sbcSum a m p).carry = true ↔ m.toNat + (1 - (getFlag .C p).toNat) ≤ a.toNat) ∧
    ((sbcSum a m p).result.toNat : Int) =
      ((a.toNat : Int) - m.toNat - (1 - (getFlag .C p).toNat)) % 256

/-- Tier 1, derived (R162 to R164; G1, G2). AND, ORA, EOR: every row, `A`, Z and N, the fault. -/
def Obligations.LogicComputes : Prop :=
  ReadsOperand andForm
    (fun m u t => t = { u with a := u.a &&& m, p := t.p } ∧ FlagsBecome u.p t.p (znOf (u.a &&& m))) ∧
  ReadsOperand oraForm
    (fun m u t => t = { u with a := u.a ||| m, p := t.p } ∧ FlagsBecome u.p t.p (znOf (u.a ||| m))) ∧
  ReadsOperand eorForm
    (fun m u t => t = { u with a := u.a ^^^ m, p := t.p } ∧ FlagsBecome u.p t.p (znOf (u.a ^^^ m)))

/-- Tier 1, derived (R165 to R167; G1, G2). CMP, CPX, CPY: every row, C, Z and N, no register, the fault. -/
def Obligations.ComparesCompare : Prop :=
  ReadsOperand cmpForm (Compares State.a) ∧ ReadsOperand cpxForm (Compares State.x) ∧
  ReadsOperand cpyForm (Compares State.y)

/-- Tier 1, derived (R168; G1, G2). BIT: both rows, Z, N and V, no register, the fault. -/
def Obligations.BitTests : Prop :=
  ∀ (i : Instr) (opc : Byte) (star : Bool) (m : MemMode), bitForm i = some (opc, star, m) →
    EncodedBy i opc star (modeBytes m) ∧
    (∀ s, ReadMapped (effAddr m s) →
      ∃ v u q, memRead (effAddr m s) s = .ok v u ∧ FlagsBecome u.p q (bitOf u.a v) ∧
        exec i s = .next { u with p := q }) ∧
    (∀ s, ¬ReadMapped (effAddr m s) → exec i s = .fault (.busFault (effAddr m s)))

/-- Tier 1, derived (R169, R170; G1, G2). INC and DEC: every row, one read and one write of the same address, Z
and N, the faults. -/
def Obligations.IncDecMemory : Prop :=
  ModifiesMem incForm (fun v _ => BitVec.ofNat 8 (v.toNat + 1)) (fun _ r => znOf r) ∧
  ModifiesMem decForm (fun v _ => BitVec.ofNat 8 (v.toNat + 255)) (fun _ r => znOf r)

/-- Tier 1, derived (R171 to R174; G1, G2). INX, INY, DEX, DEY. -/
def Obligations.IncDecRegister : Prop :=
  RegisterOp .inx 0xE8#8 (fun s => s.x + 1) (fun s => { s with x := s.x + 1 }) ∧
  RegisterOp .iny 0xC8#8 (fun s => s.y + 1) (fun s => { s with y := s.y + 1 }) ∧
  RegisterOp .dex 0xCA#8 (fun s => s.x - 1) (fun s => { s with x := s.x - 1 }) ∧
  RegisterOp .dey 0x88#8 (fun s => s.y - 1) (fun s => { s with y := s.y - 1 })

/-! ### Shifts and rotates -/

/-- Tier 2, derived (R191 to R194; G1, G2). ASL, LSR, ROL, ROR in integers: every row, on `A` and on memory, the
bit shifted out as C, Z and N, the faults. -/
def Obligations.ShiftsShift : Prop :=
  Modifies aslForm (fun v _ => BitVec.ofNat 8 (2 * v.toNat))
    (fun v r => shiftOf (some (decide (128 ≤ v.toNat))) r) ∧
  Modifies lsrForm (fun v _ => BitVec.ofNat 8 (v.toNat / 2))
    (fun v r => shiftOf (some (decide (v.toNat % 2 = 1))) r) ∧
  Modifies rolForm (fun v c => BitVec.ofNat 8 (2 * v.toNat + c.toNat))
    (fun v r => shiftOf (some (decide (128 ≤ v.toNat))) r) ∧
  Modifies rorForm (fun v c => BitVec.ofNat 8 (v.toNat / 2 + 128 * c.toNat))
    (fun v r => shiftOf (some (decide (v.toNat % 2 = 1))) r)

/-! ### Control flow -/

/-- Tier 1, derived (R200, R116; G1, G2, G7). JMP: the absolute row in every state; the indirect row where both pointer
bytes can be read, the second from the same page as the first; the faults. -/
def Obligations.JumpsJump : Prop :=
  ∀ addr : Addr,
    EncodedBy (.jmpAbs addr) 0x4C#8 false [loByte addr, hiByte addr] ∧
    EncodedBy (.jmpInd addr) 0x6C#8 true [loByte addr, hiByte addr] ∧
    ∀ s : State,
      exec (.jmpAbs addr) s = .next { s with pc := addr } ∧
      (ReadMapped addr → ReadMapped (pair (hiByte addr) (loByte addr + 1)) →
        ∃ lo s1 hi s2, memRead addr s = .ok lo s1 ∧
          memRead (pair (hiByte addr) (loByte addr + 1)) s1 = .ok hi s2 ∧
          exec (.jmpInd addr) s = .next { s2 with pc := pair hi lo }) ∧
      (¬ReadMapped addr → exec (.jmpInd addr) s = .fault (.busFault addr))

/-- Tier 1, derived (R201; G1). JSR: pushes `PC - 1`, high byte first, and jumps. -/
def Obligations.JsrPushesReturn : Prop :=
  ∀ addr : Addr,
    EncodedBy (.jsr addr) 0x20#8 false [loByte addr, hiByte addr] ∧
    ∀ s : State, exec (.jsr addr) s = .next
      { s with
        pc := addr
        sp := s.sp - 2
        ram := (s.ram.write (0x100 + s.sp.toNat) (hiByte (s.pc - 1))).write (0x100 + (s.sp - 1).toNat)
          (loByte (s.pc - 1)) }

/-- Tier 1, derived (R202; G1). RTS: pulls low byte then high byte, and adds 1. -/
def Obligations.RtsReturns : Prop :=
  EncodedBy .rts 0x60#8 false [] ∧
  ∀ s : State, exec .rts s = .next
    { s with
      pc := pair (s.ram.read (0x100 + (s.sp + 2).toNat)) (s.ram.read (0x100 + (s.sp + 1).toNat)) + 1
      sp := s.sp + 2 }

/-- Tier 2, derived (R161, R193, R201, R202, R220 to R223, the round trips of the source). JSR then RTS goes on
after the JSR; PHP then PLP restores every flag and PHA then PLA restores `A`; all with the stack pointer
restored. ADC of `b` with C clear, then SBC of `b` with C set whatever the ADC left, restores `A`. Nine
ROLs restore `A` and the carry. -/
def Obligations.RoundTrips : Prop :=
  (∀ (addr : Addr) (s : State), ∃ t,
    exec (.jsr addr) s = .next t ∧ exec .rts t = .next { s with ram := t.ram }) ∧
  (∀ s : State, ∃ t, exec .php s = .next t ∧ exec .plp t = .next { s with ram := t.ram }) ∧
  (∀ s : State, ∃ t u, exec .pha s = .next t ∧ exec .pla t = .next u ∧ u.a = s.a ∧ u.sp = s.sp) ∧
  (∀ (b : Byte) (s t : State), getFlag .C s.p = false → exec (.adcImm b) s = .next t →
    ∃ u, exec (.sbcImm b) { t with p := setFlag .C true t.p } = .next u ∧ u.a = s.a) ∧
  (∀ v p : Byte,
    let r := (fun x : Byte × Byte => rolByte x.1 x.2)^[9] (v, p)
    r.1 = v ∧ getFlag .C r.2 = getFlag .C p)

/-- Tier 1, derived (R203 to R211; G1, G2). The eight branches: the target in integers, taken or not; no flag. -/
def Obligations.BranchesBranch : Prop :=
  ∀ (i : Instr) (opc : Byte) (f : Flag) (b : Bool) (off : Byte), branchForm i = some (opc, f, b, off) →
    EncodedBy i opc false [off] ∧
    ∀ s : State, ∃ target : Addr,
      (target.toNat : Int) = ((s.pc.toNat : Int) + off.toInt) % 0x10000 ∧
      exec i s = .next (if getFlag f s.p = b then { s with pc := target } else s)

/-! ### Stack, flags, system -/

/-- Tier 1, derived (R220 to R222; G1, G2). PHA, PLA and PHP. -/
def Obligations.StackInstructions : Prop :=
  EncodedBy .pha 0x48#8 false [] ∧ EncodedBy .pla 0x68#8 false [] ∧ EncodedBy .php 0x08#8 false [] ∧
  ∀ s : State,
    exec .pha s = .next { s with ram := s.ram.write (0x100 + s.sp.toNat) s.a, sp := s.sp - 1 } ∧
    exec .php s = .next { s with ram := s.ram.write (0x100 + s.sp.toNat) s.p, sp := s.sp - 1 } ∧
    (∃ q, FlagsBecome s.p q (znOf (s.ram.read (0x100 + (s.sp + 1).toNat))) ∧
      exec .pla s = .next
        { s with a := s.ram.read (0x100 + (s.sp + 1).toNat), sp := s.sp + 1, p := q })

/-- Tier 1, derived (R223, R233; G1, G2; decision D18). PLP and RTI load six flags and keep B and U; RTI then pulls the
address, low byte first, and adds nothing. -/
def Obligations.PlpRtiRestore : Prop :=
  EncodedBy .plp 0x28#8 false [] ∧ EncodedBy .rti 0x40#8 false [] ∧
  ∀ s : State, ∃ q,
    FlagsBecome s.p q (pulledOf (s.ram.read (0x100 + (s.sp + 1).toNat))) ∧
    exec .plp s = .next { s with sp := s.sp + 1, p := q } ∧
    exec .rti s = .next
      { s with
        sp := s.sp + 3, p := q
        pc := pair (s.ram.read (0x100 + (s.sp + 3).toNat)) (s.ram.read (0x100 + (s.sp + 2).toNat)) }

/-- Tier 1, derived (R224 to R231; G1, G2). The seven flag instructions: one flag, nothing else. NOP: nothing. -/
def Obligations.FlagInstructionsAndNop : Prop :=
  (∀ (i : Instr) (opc : Byte) (f : Flag) (b : Bool), flagForm i = some (opc, f, b) →
    EncodedBy i opc false [] ∧
    ∀ s : State, ∃ q, FlagsBecome s.p q (oneOf f b) ∧ exec i s = .next { s with p := q }) ∧
  EncodedBy .nop 0xEA#8 false [] ∧ ∀ s : State, exec .nop s = .next s

/-- Tier 1, derived (R232; G1, G6; decision D17). BRK takes the software interrupt: the address after the next byte is
pushed, high byte first, then the flags with B and U set; the stored P gains I only; `PC` comes from 0xFFFE. -/
def Obligations.BrkTakesInterrupt : Prop :=
  EncodedBy .brk 0x00#8 false [] ∧
  ∀ s : State, ∃ q pushed lo hi,
    FlagsBecome s.p q (oneOf .I true) ∧
    FlagsBecome s.p pushed (fun f => if f = .B ∨ f = .U then some true else none) ∧
    memRead 0xFFFE#16 s = .ok lo s ∧ memRead 0xFFFF#16 s = .ok hi s ∧
    exec .brk s = .next
      { s with
        pc := pair hi lo, p := q, sp := s.sp - 3
        ram := ((s.ram.write (0x100 + s.sp.toNat) (hiByte (s.pc + 1))).write (0x100 + (s.sp - 1).toNat)
          (loByte (s.pc + 1))).write (0x100 + (s.sp - 2).toNat) pushed }

/-- Tier 1, derived (R331; G6; decision D15). NMI entry: the unmodified `PC`, the flags with B clear and U set,
the vector 0xFFFA, `P.I` set. -/
def Obligations.NmiEntrySavesState : Prop :=
  ∀ s : State, ∃ q pushed lo hi,
    FlagsBecome s.p q (oneOf .I true) ∧
    FlagsBecome s.p pushed (fun f => if f = .B then some false else if f = .U then some true else none) ∧
    memRead 0xFFFA#16 s = .ok lo s ∧ memRead 0xFFFB#16 s = .ok hi s ∧
    nmiEntry s =
      { s with
        pc := pair hi lo, p := q, sp := s.sp - 3
        ram := ((s.ram.write (0x100 + s.sp.toNat) (hiByte s.pc)).write (0x100 + (s.sp - 1).toNat)
          (loByte s.pc)).write (0x100 + (s.sp - 2).toNat) pushed }

/-- Tier 2, derived (R232, R233, R335, R337). RTI undoes BRK but for the skipped byte, and undoes an NMI entry
exactly; only the three stack bytes have been written. -/
def Obligations.RtiUndoesEntry : Prop :=
  ∀ s : State,
    (∃ t, exec .brk s = .next t ∧ exec .rti t = .next { s with pc := s.pc + 1, ram := t.ram }) ∧
    exec .rti (nmiEntry s) = .next { s with ram := (nmiEntry s).ram }

/-! ### Frames, over all instructions -/

/-- Tier 2, derived (R19 to R21, R17, R18). A flag changes only under an instruction the tables name as its
writer; no instruction changes B or U. -/
def Obligations.FlagFrame : Prop :=
  ∀ (i : Instr) (s t : State), exec i s = .next t →
    (writesC i = false → getFlag .C t.p = getFlag .C s.p) ∧
    (writesZN i = false → getFlag .Z t.p = getFlag .Z s.p ∧ getFlag .N t.p = getFlag .N s.p) ∧
    (writesI i = false → getFlag .I t.p = getFlag .I s.p) ∧
    (writesD i = false → getFlag .D t.p = getFlag .D s.p) ∧
    (writesV i = false → getFlag .V t.p = getFlag .V s.p) ∧
    getFlag .B t.p = getFlag .B s.p ∧ getFlag .U t.p = getFlag .U s.p

/-- Tier 2, derived (R11 to R14). A register changes only under an instruction its rule names as a writer. -/
def Obligations.RegisterFrame : Prop :=
  ∀ (i : Instr) (s t : State), exec i s = .next t →
    (writesA i = false → t.a = s.a) ∧ (writesX i = false → t.x = s.x) ∧
    (writesY i = false → t.y = s.y) ∧ (writesSp i = false → t.sp = s.sp)

/-- Tier 2, derived (R52, R53, R80, R85, R107). Every RAM and cartridge byte outside the bytes an instruction
stores to reads as before, and every VRAM and OAM byte outside the one a port store reaches. -/
def Obligations.MemoryFrame : Prop :=
  ∀ (i : Instr) (s t : State), exec i s = .next t →
    (∀ a : Addr, a.toNat < 0x2000 → ¬StoresToRam i s a →
      t.ram.read (ramIndex a) = s.ram.read (ramIndex a)) ∧
    (∀ a : Addr, 0x8000 ≤ a.toNat → romByte t.cart a = romByte s.cart a) ∧
    (∀ k : Nat, ¬(StoresToPort i s .data ∧ k = vramStoreIndex i s) →
      t.ppu.vram.read k = s.ppu.vram.read k) ∧
    (∀ k : Nat, ¬(StoresToPort i s .oamData ∧ k = s.ppu.oamAddr.toNat) →
      t.ppu.oam.read k = s.ppu.oam.read k)

/-- Tier 2, derived (R22 to R24, R26, R28 to R37, R78, R81). No instruction changes the cartridge, a launch
parameter, the coordinator's latches, the PPU counters or the status register. Of the other PPU registers,
each changes only by a store to its port, the VRAM latch and the toggle only by an access to some port. -/
def Obligations.SystemStateFrame : Prop :=
  ∀ (i : Instr) (s t : State), exec i s = .next t →
    t.cart = s.cart ∧ t.nmiPending = s.nmiPending ∧ t.halted = s.halted ∧
    t.stopRequested = s.stopRequested ∧ t.extModes = s.extModes ∧
    t.statusReadClearsW = s.statusReadClearsW ∧
    t.ppu.x = s.ppu.x ∧ t.ppu.y = s.ppu.y ∧ t.ppu.cycle = s.ppu.cycle ∧ t.ppu.status = s.ppu.status ∧
    (¬StoresToPort i s .control → t.ppu.ctrl = s.ppu.ctrl) ∧
    (¬StoresToPort i s .mask → t.ppu.mask = s.ppu.mask) ∧
    (¬StoresToPort i s .oamAddress → ¬StoresToPort i s .oamData → t.ppu.oamAddr = s.ppu.oamAddr) ∧
    (¬StoresToPort i s .scroll → t.ppu.scrollX = s.ppu.scrollX ∧ t.ppu.scrollY = s.ppu.scrollY) ∧
    (¬TouchesPort i s → t.ppu.v = s.ppu.v ∧ t.ppu.w = s.ppu.w ∧ t.draws = s.draws)

/-! ### The PPU -/

/-- Tier 2, derived (R261, R262). The PPU from power-on after `n` dots: the three counters and the status
register in closed form. -/
def Obligations.FrameGeometry : Prop :=
  ∀ (c : Byte) (n : Nat),
    (dotsFrom c n).cycle = n ∧
    (dotsFrom c n).y = (n % 88740) / 340 ∧
    (dotsFrom c n).x = (n % 88740) % 340 ∧
    (dotsFrom c n).status = if 81940 ≤ n % 88740 then 0x80#8 else 0x00#8

/-- Tier 2, derived (R263, R261). From power-on the NMI condition holds after the `n`-th dot exactly when
bit 7 of the control register is set and `n` is 81941 in its frame. -/
def Obligations.NmiOncePerFrame : Prop :=
  ∀ (c : Byte) (n : Nat), nmiCondition (dotsFrom c n) = (c.getLsbD 7 && decide (n % 88740 = 81941))

/-- Tier 1, derived (R260, R263). One tick from every state with counters in range: the cycle count, the two
counters, bit 7 of the status register and the latch, and nothing else of the machine. -/
def Obligations.TickMovesOneDot : Prop :=
  ∀ s : State, s.ppu.x < 340 → s.ppu.y < 261 →
    ∃ status,
      tick s =
        { s with
          ppu :=
            { s.ppu with
              cycle := s.ppu.cycle + 1
              x := if s.ppu.x = 339 then 0 else s.ppu.x + 1
              y := if s.ppu.x = 339 then (s.ppu.y + 1) % 261 else s.ppu.y
              status := status }
          nmiPending := (tick s).nmiPending } ∧
      status.getLsbD 7 =
        (if s.ppu.x = 339 ∧ s.ppu.y = 260 then false
          else if s.ppu.x = 339 ∧ s.ppu.y = 240 then true
          else s.ppu.status.getLsbD 7) ∧
      status &&& 0x7F#8 = s.ppu.status &&& 0x7F#8 ∧
      ((tick s).nmiPending = true ↔
        s.nmiPending = true ∨
          (s.ppu.y = 241 ∧ s.ppu.x = 0 ∧ s.ppu.ctrl.getLsbD 7 = true ∧ 29658 < s.ppu.cycle + 1))

/-- Tier 1, derived (R265, R267, R268, R271, R272; G4, G5; decisions D6, D7, D9, D12). What a CPU read of each port gives
and changes. The byte of a write-only port is a draw: nothing is said of its value (log entry 3). -/
def Obligations.PortReads : Prop :=
  ∀ s : State,
    memRead 0x2002#16 s =
      .ok s.ppu.status { s with ppu := { s.ppu with w := s.ppu.w && !s.statusReadClearsW } } ∧
    memRead 0x2004#16 s = .ok (s.ppu.oam.read s.ppu.oamAddr.toNat) s ∧
    memRead 0x2007#16 s =
      .ok (s.ppu.vram.read (s.ppu.v.toNat % 0x4000))
        { s with ppu := { s.ppu with v := s.ppu.v + if s.ppu.ctrl.getLsbD 2 then 32 else 1 } } ∧
    ∀ a ∈ [0x2000#16, 0x2001#16, 0x2003#16, 0x2005#16, 0x2006#16],
      ∃ v, memRead a s = .ok v { s with draws := s.draws + 1 }

/-- Tier 1, derived (R266, R268 to R273; G4, G5; decisions D6, D9 to D12). What a CPU write of each port changes. -/
def Obligations.PortWrites : Prop :=
  ∀ (v : Byte) (s : State),
    memWrite 0x2000#16 v s = .next { s with ppu := { s.ppu with ctrl := v } } ∧
    memWrite 0x2001#16 v s = .next { s with ppu := { s.ppu with mask := v } } ∧
    memWrite 0x2002#16 v s = .next s ∧
    memWrite 0x2003#16 v s = .next { s with ppu := { s.ppu with oamAddr := v } } ∧
    memWrite 0x2004#16 v s = .next
      { s with
        ppu :=
          { s.ppu with
            oam := s.ppu.oam.write s.ppu.oamAddr.toNat v, oamAddr := s.ppu.oamAddr + 1 } } ∧
    memWrite 0x2005#16 v s = .next
      { s with
        ppu :=
          if s.ppu.w then { s.ppu with scrollY := v, w := false }
          else { s.ppu with scrollX := v, w := true } } ∧
    memWrite 0x2006#16 v s = .next
      { s with
        ppu :=
          if s.ppu.w then { s.ppu with v := pair (hiByte s.ppu.v) v, w := false }
          else { s.ppu with v := pair v (loByte s.ppu.v), w := true } } ∧
    memWrite 0x2007#16 v s = .next
      { s with
        ppu :=
          { s.ppu with
            vram := s.ppu.vram.write (s.ppu.v.toNat % 0x4000) v
            v := s.ppu.v + if s.ppu.ctrl.getLsbD 2 then 32 else 1 } }

/-- Tier 2, derived (R270, R271). With the toggle 0, two address writes set the VRAM latch; a byte written
through the data port is then read back after the address has been set again. -/
def Obligations.VramWriteThenRead : Prop :=
  ∀ (hi lo v : Byte) (s : State), s.ppu.w = false →
    ∃ s1 s2 s3 s4 s5 s6,
      memWrite 0x2006#16 hi s = .next s1 ∧ memWrite 0x2006#16 lo s1 = .next s2 ∧
      s2.ppu.v = pair hi lo ∧ s2.ppu.w = false ∧
      memWrite 0x2007#16 v s2 = .next s3 ∧
      memWrite 0x2006#16 hi s3 = .next s4 ∧ memWrite 0x2006#16 lo s4 = .next s5 ∧
      memRead 0x2007#16 s5 = .ok v s6

/-- Tier 2, derived (R274, R322, decision D13; log entry 11 for the halt). OAM DMA on a machine that has not
halted moves 255 bytes, wrapping in OAM, and keeps the 256th OAM entry and `oam_addr`. From RAM and from the
cartridge window it changes nothing else. From a page of ports its reads have their side effects: 31 data-port
reads, 32 status reads and 160 draws, whose values are free (log entry 3); the OAM data port gives the entry at
`oam_addr`, which the first transfer has written. From a page in 0x40 to 0x7F it faults at the first byte. -/
def Obligations.OamDmaMoves255Bytes : Prop :=
  ∀ (page : Byte) (s : State), s.halted = none →
    (page.toNat < 0x20 →
      ∃ m, hostAct (.oamDma page) s = .next { s with ppu := { s.ppu with oam := m } } ∧
        (∀ k < 255, m.read (oamEntry s k) = s.ram.read ((page.toNat * 256 + k) % 0x800)) ∧
        m.read (oamEntry s 255) = s.ppu.oam.read (oamEntry s 255)) ∧
    (0x80 ≤ page.toNat →
      ∃ m, hostAct (.oamDma page) s = .next { s with ppu := { s.ppu with oam := m } } ∧
        (∀ k < 255, memRead (pair page (BitVec.ofNat 8 k)) s = .ok (m.read (oamEntry s k)) s) ∧
        m.read (oamEntry s 255) = s.ppu.oam.read (oamEntry s 255)) ∧
    (0x20 ≤ page.toNat → page.toNat < 0x40 →
      ∃ m,
        hostAct (.oamDma page) s = .next
          { s with
            ppu :=
              { s.ppu with
                oam := m, v := s.ppu.v + BitVec.ofNat 16 31 * vramInc s.ppu
                w := s.ppu.w && !s.statusReadClearsW }
            draws := s.draws + 160 } ∧
        (∀ k < 255,
          (k % 8 = 2 → m.read (oamEntry s k) = s.ppu.status) ∧
          (k % 8 = 4 → m.read (oamEntry s k) = m.read (oamEntry s 0)) ∧
          (k % 8 = 7 → m.read (oamEntry s k) =
            s.ppu.vram.read ((s.ppu.v + BitVec.ofNat 16 (k / 8) * vramInc s.ppu).toNat % 0x4000))) ∧
        m.read (oamEntry s 255) = s.ppu.oam.read (oamEntry s 255)) ∧
    (0x40 ≤ page.toNat → page.toNat < 0x80 →
      hostAct (.oamDma page) s = .fault (.busFault (pair page 0)) ∧
      hostHaltedState (.oamDma page) s = some { s with halted := some (.busFault (pair page 0)) })
end

