-- ==== Sys2Proof/Laws/Bits.lean ====
section
/-! SUPPORT. The byte-order helpers undo each other. -/

namespace Sys2Proof

@[simp] theorem hiByte_pair (hi lo : Byte) : hiByte (pair hi lo) = hi := by
  apply BitVec.eq_of_getLsbD_eq
  intro i h
  simp only [hiByte, pair, BitVec.getLsbD_extractLsb', h, decide_true, Bool.true_and]
  rw [BitVec.getLsbD_append]; simp

@[simp] theorem loByte_pair (hi lo : Byte) : loByte (pair hi lo) = lo := by
  apply BitVec.eq_of_getLsbD_eq
  intro i h
  simp only [loByte, pair, BitVec.getLsbD_extractLsb', h, decide_true, Bool.true_and]
  rw [BitVec.getLsbD_append]; simp [h]

@[simp] theorem pair_hiByte_loByte (a : Addr) : pair (hiByte a) (loByte a) = a := by
  apply BitVec.eq_of_getLsbD_eq
  intro i h
  rw [pair, BitVec.getLsbD_append, hiByte, loByte]
  simp only [BitVec.getLsbD_extractLsb']
  by_cases h8 : i < 8
  · simp [h8]
  · have : i - 8 < 8 := by omega
    simp [h8, this, show 8 + (i - 8) = i from by omega]

/-- `{hi, lo}` as a number. -/
theorem toNat_pair (hi lo : Byte) : (pair hi lo).toNat = hi.toNat * 256 + lo.toNat := by
  have h : (pair hi lo).toNat = hi.toNat <<< 8 ||| lo.toNat := BitVec.toNat_append ..
  rw [h, ← Nat.shiftLeft_add_eq_or_of_lt lo.isLt, Nat.shiftLeft_eq]

/-- An address as the number of its two bytes. -/
theorem toNat_eq_bytes (a : Addr) : a.toNat = (hiByte a).toNat * 256 + (loByte a).toNat := by
  rw [← toNat_pair, pair_hiByte_loByte]

@[simp] theorem toNat_zext16 (b : Byte) : (zext16 b).toNat = b.toNat := by
  have := b.isLt
  simp only [zext16, BitVec.toNat_setWidth]
  omega

end Sys2Proof
end

