-- ==== Sys2Proof/Laws/Flags.lean ====
section
/-! SUPPORT. What each flag computation does to each flag of `P`. -/

namespace Sys2Proof.Machine

@[simp] theorem getFlag_setFlag_same (f : Flag) (b : Bool) (p : Byte) : getFlag f (setFlag f b p) = b := by
  cases f <;> cases b <;> simp [getFlag, setFlag, Flag.mask, Flag.bit]

theorem getFlag_setFlag_ne {f g : Flag} (h : g ≠ f) (b : Bool) (p : Byte) :
    getFlag g (setFlag f b p) = getFlag g p := by
  cases f <;> cases g <;> first
    | exact absurd rfl h
    | (cases b <;> simp [getFlag, setFlag, Flag.mask, Flag.bit])

theorem getFlag_setFlag (f g : Flag) (b : Bool) (p : Byte) :
    getFlag g (setFlag f b p) = if g = f then b else getFlag g p := by
  split
  · next h => rw [h, getFlag_setFlag_same]
  · next h => exact getFlag_setFlag_ne h b p

/-- `SetZN(v)` writes Z and N and no other flag. -/
theorem getFlag_setZN (g : Flag) (v p : Byte) :
    getFlag g (setZN v p) = if g = .N then v.msb else if g = .Z then v == 0 else getFlag g p := by
  simp only [setZN, getFlag_setFlag]

theorem getFlag_sumFlags (g : Flag) (r : Sum) (p : Byte) :
    getFlag g (sumFlags r p) =
      if g = .N then r.result.msb else if g = .Z then r.result == 0
      else if g = .V then r.overflow else if g = .C then r.carry else getFlag g p := by
  simp only [sumFlags, getFlag_setZN, getFlag_setFlag]

theorem getFlag_compareFlags (g : Flag) (r m p : Byte) :
    getFlag g (compareFlags r m p) =
      if g = .N then (r - m).msb else if g = .Z then r - m == 0
      else if g = .C then decide (m.toNat ≤ r.toNat) else getFlag g p := by
  simp only [compareFlags, getFlag_setZN, getFlag_setFlag]

theorem getFlag_bitFlags (g : Flag) (a m p : Byte) :
    getFlag g (bitFlags a m p) =
      if g = .V then m.getLsbD 6 else if g = .N then m.getLsbD 7
      else if g = .Z then (a &&& m) == 0 else getFlag g p := by
  simp only [bitFlags, getFlag_setFlag]

theorem getFlag_pulledFlags (g : Flag) (v p : Byte) :
    getFlag g (pulledFlags v p) = if g = .B ∨ g = .U then getFlag g p else getFlag g v := by
  cases g <;> simp [pulledFlags, getFlag, Flag.bit]

/-- Two status bytes with the same flags are the same byte. -/
theorem eq_of_getFlag_eq {p q : Byte} (h : ∀ f, getFlag f p = getFlag f q) : p = q := by
  apply BitVec.eq_of_getLsbD_eq
  intro i hi
  have : i = 0 ∨ i = 1 ∨ i = 2 ∨ i = 3 ∨ i = 4 ∨ i = 5 ∨ i = 6 ∨ i = 7 := by omega
  rcases this with rfl | rfl | rfl | rfl | rfl | rfl | rfl | rfl
  · exact h .C
  · exact h .Z
  · exact h .I
  · exact h .D
  · exact h .B
  · exact h .U
  · exact h .V
  · exact h .N

/-- The byte operations of the shifts, INC and DEC touch neither of the two bits of `P` that no
instruction writes. -/
structure KeepsBU (op : Byte → Byte → Byte × Byte) : Prop where
  u : ∀ v p, getFlag .U (op v p).2 = getFlag .U p
  b : ∀ v p, getFlag .B (op v p).2 = getFlag .B p

theorem aslByte_keepsBU : KeepsBU aslByte := by
  constructor <;> simp [aslByte, getFlag_setZN, getFlag_setFlag]
theorem lsrByte_keepsBU : KeepsBU lsrByte := by
  constructor <;> simp [lsrByte, getFlag_setZN, getFlag_setFlag]
theorem rolByte_keepsBU : KeepsBU rolByte := by
  constructor <;> simp [rolByte, getFlag_setZN, getFlag_setFlag]
theorem rorByte_keepsBU : KeepsBU rorByte := by
  constructor <;> simp [rorByte, getFlag_setZN, getFlag_setFlag]
theorem incByte_keepsBU : KeepsBU incByte := by
  constructor <;> simp [incByte, getFlag_setZN]
theorem decByte_keepsBU : KeepsBU decByte := by
  constructor <;> simp [decByte, getFlag_setZN]

end Sys2Proof.Machine
end

