-- ==== Sys2Proof/Laws/Memory.lean ====
section
/-! SUPPORT. The laws of a byte array: a read after a write, and that every operation keeps the canonical
form and the bound on the indexes. -/

namespace Sys2Proof.Machine

@[simp] theorem Memory.read_nil (i : Nat) : Memory.read [] i = 0#8 := rfl

theorem Memory.read_cons (c : Host.Cell) (m : Memory) (i : Nat) :
    Memory.read (c :: m) i = if c.1 = i then c.2 else Memory.read m i := rfl

theorem Memory.read_erase_same (m : Memory) (i : Nat) : (m.erase i).read i = 0#8 := by
  induction m with
  | nil => rfl
  | cons c m ih =>
    by_cases h : c.1 = i
    · simpa [Memory.erase, h] using ih
    · simpa [Memory.erase, Memory.read_cons, h] using ih

theorem Memory.read_erase_ne (m : Memory) {i j : Nat} (h : j ≠ i) : (m.erase i).read j = m.read j := by
  induction m with
  | nil => rfl
  | cons c m ih =>
    by_cases hc : c.1 = i
    · have : c.1 ≠ j := fun e => h (e.symm.trans hc)
      simpa [Memory.erase, Memory.read_cons, hc, Ne.symm h] using ih
    · have ih' := ih
      simp only [Memory.erase] at ih'
      simp [Memory.erase, Memory.read_cons, hc, ih']

theorem Memory.read_insert_same (m : Memory) (i : Nat) (v : Byte) (h : ∀ c ∈ m, c.1 ≠ i) :
    (m.insert i v).read i = v := by
  induction m with
  | nil => simp [Memory.insert, Memory.read_cons]
  | cons c m ih =>
    have hc := h c (by simp)
    have hm := ih fun d hd => h d (by simp [hd])
    unfold Memory.insert
    split <;> simp [Memory.read_cons, hc, hm]

theorem Memory.read_insert_ne (m : Memory) {i j : Nat} (v : Byte) (h : j ≠ i) :
    (m.insert i v).read j = m.read j := by
  induction m with
  | nil => simp [Memory.insert, Memory.read_cons, Ne.symm h]
  | cons c m ih =>
    unfold Memory.insert
    split <;> simp [Memory.read_cons, Ne.symm h, ih]

theorem Memory.erase_ne (m : Memory) (i : Nat) : ∀ c ∈ m.erase i, c.1 ≠ i := by
  intro c hc
  simpa using (List.mem_filter.mp hc).2

/-- A byte reads back as it was written. -/
@[simp] theorem Memory.read_write_same (m : Memory) (i : Nat) (v : Byte) : (m.write i v).read i = v := by
  unfold Memory.write
  split
  · next h => rw [Memory.read_erase_same, h]; rfl
  · exact Memory.read_insert_same _ _ _ (Memory.erase_ne m i)

/-- A write leaves every other byte alone. -/
@[simp] theorem Memory.read_write_ne (m : Memory) {i j : Nat} (v : Byte) (h : j ≠ i) :
    (m.write i v).read j = m.read j := by
  unfold Memory.write
  split
  · exact Memory.read_erase_ne m h
  · rw [Memory.read_insert_ne _ _ h, Memory.read_erase_ne m h]

theorem Memory.read_write (m : Memory) (i j : Nat) (v : Byte) :
    (m.write i v).read j = if j = i then v else m.read j := by
  split
  · next h => rw [h, Memory.read_write_same]
  · next h => exact Memory.read_write_ne m v h

theorem Memory.mem_insert {m : Memory} {i : Nat} {v : Byte} {c : Host.Cell} :
    c ∈ m.insert i v ↔ c = (i, v) ∨ c ∈ m := by
  induction m with
  | nil => simp [Memory.insert]
  | cons d m ih =>
    unfold Memory.insert
    split
    · simp
    · simp [ih]; tauto

theorem Memory.erase_wf {m : Memory} (h : m.wf) (i : Nat) : (m.erase i).wf :=
  ⟨h.1.filter _, fun c hc => h.2 c (List.mem_filter.mp hc).1⟩

theorem Memory.insert_wf {m : Memory} (h : m.wf) {i : Nat} {v : Byte} (hv : v ≠ Memory.unlisted)
    (hi : ∀ c ∈ m, c.1 ≠ i) : (m.insert i v).wf := by
  induction m with
  | nil => exact ⟨by simp [Memory.insert], by simpa [Memory.insert] using hv⟩
  | cons c m ih =>
    obtain ⟨hp, hz⟩ := h
    obtain ⟨hc, hm⟩ := List.pairwise_cons.mp hp
    have ih' := ih ⟨hm, fun d hd => hz d (by simp [hd])⟩ fun d hd => hi d (by simp [hd])
    have hne := hi c (by simp)
    unfold Memory.insert
    split
    · next hlt =>
      refine ⟨List.pairwise_cons.mpr ⟨fun d hd => ?_, hp⟩, fun d hd => ?_⟩
      · rcases List.mem_cons.mp hd with rfl | hd
        · exact hlt
        · exact hlt.trans (hc d hd)
      · rcases List.mem_cons.mp hd with rfl | hd
        · exact hv
        · exact hz d hd
    · next hlt =>
      refine ⟨List.pairwise_cons.mpr ⟨fun d hd => ?_, ih'.1⟩, fun d hd => ?_⟩
      · rcases Memory.mem_insert.mp hd with rfl | hd
        · exact lt_of_le_of_ne (not_lt.mp hlt) hne
        · exact hc d hd
      · rcases List.mem_cons.mp hd with rfl | hd
        · exact hz d (by simp)
        · exact ih'.2 d hd

/-- A write keeps the canonical form. -/
theorem Memory.write_wf {m : Memory} (h : m.wf) (i : Nat) (v : Byte) : (m.write i v).wf := by
  unfold Memory.write
  split
  · exact Memory.erase_wf h i
  · next hv => exact Memory.insert_wf (Memory.erase_wf h i) hv (Memory.erase_ne m i)

/-- A write below the bound keeps every index below it. -/
theorem Memory.write_within {n : Nat} {m : Memory} (h : m.within n) {i : Nat} (hi : i < n) (v : Byte) :
    (m.write i v).within n := by
  have he : (m.erase i).within n := fun c hc => h c (List.mem_filter.mp hc).1
  unfold Memory.write
  split
  · exact he
  · intro c hc
    rcases Memory.mem_insert.mp hc with rfl | hc
    · exact hi
    · exact he c hc

theorem Memory.mem_ofBytesFrom {bs : List Byte} {i : Nat} {c : Host.Cell}
    (h : c ∈ Memory.ofBytesFrom i bs) : i ≤ c.1 ∧ c.1 < i + bs.length ∧ c.2 ≠ Memory.unlisted := by
  induction bs generalizing i with
  | nil => simp [Memory.ofBytesFrom] at h
  | cons b bs ih =>
    unfold Memory.ofBytesFrom at h
    split at h
    · obtain ⟨h1, h2, h3⟩ := ih h
      exact ⟨by omega, by simp only [List.length_cons]; omega, h3⟩
    · next hb =>
      rcases List.mem_cons.mp h with rfl | h
      · exact ⟨le_refl _, by simp, hb⟩
      · obtain ⟨h1, h2, h3⟩ := ih h
        exact ⟨by omega, by simp only [List.length_cons]; omega, h3⟩

/-- The array of given bytes is canonical. -/
theorem Memory.ofBytesFrom_wf (i : Nat) (bs : List Byte) : (Memory.ofBytesFrom i bs).wf := by
  induction bs generalizing i with
  | nil => exact ⟨List.Pairwise.nil, by simp [Memory.ofBytesFrom]⟩
  | cons b bs ih =>
    unfold Memory.ofBytesFrom
    split
    · exact ih _
    · next hb =>
      refine ⟨List.pairwise_cons.mpr ⟨fun c hc => ?_, (ih _).1⟩, fun c hc => ?_⟩
      · exact Nat.lt_of_succ_le (Memory.mem_ofBytesFrom hc).1
      · rcases List.mem_cons.mp hc with rfl | hc
        · exact hb
        · exact (ih _).2 c hc

theorem Memory.ofBytes_wf (bs : List Byte) : (Memory.ofBytes bs).wf := Memory.ofBytesFrom_wf 0 bs

theorem Memory.ofBytes_within (bs : List Byte) : (Memory.ofBytes bs).within bs.length := fun _ hc => by
  simpa using (Memory.mem_ofBytesFrom hc).2.1

theorem Memory.read_ofBytesFrom_lt (bs : List Byte) {i j : Nat} (h : j < i) :
    (Memory.ofBytesFrom i bs).read j = 0#8 := by
  induction bs generalizing i with
  | nil => rfl
  | cons b bs ih =>
    unfold Memory.ofBytesFrom
    split
    · exact ih (by omega)
    · rw [Memory.read_cons, if_neg (by simp; omega)]; exact ih (by omega)

theorem Memory.read_ofBytesFrom (bs : List Byte) (i k : Nat) :
    (Memory.ofBytesFrom i bs).read (i + k) = bs.getD k 0 := by
  induction bs generalizing i k with
  | nil => simp [Memory.ofBytesFrom]
  | cons b bs ih =>
    unfold Memory.ofBytesFrom
    cases k with
    | zero =>
      split
      · next hb =>
        show Memory.read (Memory.ofBytesFrom (i + 1) bs) i = b
        rw [Memory.read_ofBytesFrom_lt bs (Nat.lt_add_one i), hb]; rfl
      · simp [Memory.read_cons]
    | succ k =>
      have step := ih (i + 1) k
      rw [show i + 1 + k = i + (k + 1) from by omega] at step
      split
      · simpa using step
      · rw [Memory.read_cons, if_neg (by simp)]; simpa using step

/-- The array of given bytes reads back as the bytes, and as 0 beyond them. -/
theorem Memory.read_ofBytes (bs : List Byte) (k : Nat) : (Memory.ofBytes bs).read k = bs.getD k 0 := by
  simpa [Memory.ofBytes] using Memory.read_ofBytesFrom bs 0 k

end Sys2Proof.Machine
end

