-- ==== Sys2Proof/Laws/State.lean ====
section
/-! SUPPORT. What each register update does to each field of the state. -/

namespace Sys2Proof.Machine

variable (s : State)

@[simp] theorem State.setA_a (v : Byte) : (s.setA v).a = v := rfl
@[simp] theorem State.setA_x (v : Byte) : (s.setA v).x = s.x := rfl
@[simp] theorem State.setA_y (v : Byte) : (s.setA v).y = s.y := rfl
@[simp] theorem State.setA_sp (v : Byte) : (s.setA v).sp = s.sp := rfl
@[simp] theorem State.setA_pc (v : Byte) : (s.setA v).pc = s.pc := rfl
@[simp] theorem State.setA_p (v : Byte) : (s.setA v).p = s.p := rfl
@[simp] theorem State.setA_ram (v : Byte) : (s.setA v).ram = s.ram := rfl
@[simp] theorem State.setA_cart (v : Byte) : (s.setA v).cart = s.cart := rfl
@[simp] theorem State.setA_ppu (v : Byte) : (s.setA v).ppu = s.ppu := rfl
@[simp] theorem State.setA_nmiPending (v : Byte) : (s.setA v).nmiPending = s.nmiPending := rfl
@[simp] theorem State.setA_halted (v : Byte) : (s.setA v).halted = s.halted := rfl
@[simp] theorem State.setA_stopRequested (v : Byte) : (s.setA v).stopRequested = s.stopRequested := rfl
@[simp] theorem State.setA_extModes (v : Byte) : (s.setA v).extModes = s.extModes := rfl
@[simp] theorem State.setA_statusReadClearsW (v : Byte) : (s.setA v).statusReadClearsW = s.statusReadClearsW := rfl
@[simp] theorem State.setA_draws (v : Byte) : (s.setA v).draws = s.draws := rfl

@[simp] theorem State.setX_a (v : Byte) : (s.setX v).a = s.a := rfl
@[simp] theorem State.setX_x (v : Byte) : (s.setX v).x = v := rfl
@[simp] theorem State.setX_y (v : Byte) : (s.setX v).y = s.y := rfl
@[simp] theorem State.setX_sp (v : Byte) : (s.setX v).sp = s.sp := rfl
@[simp] theorem State.setX_pc (v : Byte) : (s.setX v).pc = s.pc := rfl
@[simp] theorem State.setX_p (v : Byte) : (s.setX v).p = s.p := rfl
@[simp] theorem State.setX_ram (v : Byte) : (s.setX v).ram = s.ram := rfl
@[simp] theorem State.setX_cart (v : Byte) : (s.setX v).cart = s.cart := rfl
@[simp] theorem State.setX_ppu (v : Byte) : (s.setX v).ppu = s.ppu := rfl
@[simp] theorem State.setX_nmiPending (v : Byte) : (s.setX v).nmiPending = s.nmiPending := rfl
@[simp] theorem State.setX_halted (v : Byte) : (s.setX v).halted = s.halted := rfl
@[simp] theorem State.setX_stopRequested (v : Byte) : (s.setX v).stopRequested = s.stopRequested := rfl
@[simp] theorem State.setX_extModes (v : Byte) : (s.setX v).extModes = s.extModes := rfl
@[simp] theorem State.setX_statusReadClearsW (v : Byte) : (s.setX v).statusReadClearsW = s.statusReadClearsW := rfl
@[simp] theorem State.setX_draws (v : Byte) : (s.setX v).draws = s.draws := rfl

@[simp] theorem State.setY_a (v : Byte) : (s.setY v).a = s.a := rfl
@[simp] theorem State.setY_x (v : Byte) : (s.setY v).x = s.x := rfl
@[simp] theorem State.setY_y (v : Byte) : (s.setY v).y = v := rfl
@[simp] theorem State.setY_sp (v : Byte) : (s.setY v).sp = s.sp := rfl
@[simp] theorem State.setY_pc (v : Byte) : (s.setY v).pc = s.pc := rfl
@[simp] theorem State.setY_p (v : Byte) : (s.setY v).p = s.p := rfl
@[simp] theorem State.setY_ram (v : Byte) : (s.setY v).ram = s.ram := rfl
@[simp] theorem State.setY_cart (v : Byte) : (s.setY v).cart = s.cart := rfl
@[simp] theorem State.setY_ppu (v : Byte) : (s.setY v).ppu = s.ppu := rfl
@[simp] theorem State.setY_nmiPending (v : Byte) : (s.setY v).nmiPending = s.nmiPending := rfl
@[simp] theorem State.setY_halted (v : Byte) : (s.setY v).halted = s.halted := rfl
@[simp] theorem State.setY_stopRequested (v : Byte) : (s.setY v).stopRequested = s.stopRequested := rfl
@[simp] theorem State.setY_extModes (v : Byte) : (s.setY v).extModes = s.extModes := rfl
@[simp] theorem State.setY_statusReadClearsW (v : Byte) : (s.setY v).statusReadClearsW = s.statusReadClearsW := rfl
@[simp] theorem State.setY_draws (v : Byte) : (s.setY v).draws = s.draws := rfl

@[simp] theorem State.setSp_a (v : Byte) : (s.setSp v).a = s.a := rfl
@[simp] theorem State.setSp_x (v : Byte) : (s.setSp v).x = s.x := rfl
@[simp] theorem State.setSp_y (v : Byte) : (s.setSp v).y = s.y := rfl
@[simp] theorem State.setSp_sp (v : Byte) : (s.setSp v).sp = v := rfl
@[simp] theorem State.setSp_pc (v : Byte) : (s.setSp v).pc = s.pc := rfl
@[simp] theorem State.setSp_p (v : Byte) : (s.setSp v).p = s.p := rfl
@[simp] theorem State.setSp_ram (v : Byte) : (s.setSp v).ram = s.ram := rfl
@[simp] theorem State.setSp_cart (v : Byte) : (s.setSp v).cart = s.cart := rfl
@[simp] theorem State.setSp_ppu (v : Byte) : (s.setSp v).ppu = s.ppu := rfl
@[simp] theorem State.setSp_nmiPending (v : Byte) : (s.setSp v).nmiPending = s.nmiPending := rfl
@[simp] theorem State.setSp_halted (v : Byte) : (s.setSp v).halted = s.halted := rfl
@[simp] theorem State.setSp_stopRequested (v : Byte) : (s.setSp v).stopRequested = s.stopRequested := rfl
@[simp] theorem State.setSp_extModes (v : Byte) : (s.setSp v).extModes = s.extModes := rfl
@[simp] theorem State.setSp_statusReadClearsW (v : Byte) : (s.setSp v).statusReadClearsW = s.statusReadClearsW := rfl
@[simp] theorem State.setSp_draws (v : Byte) : (s.setSp v).draws = s.draws := rfl

@[simp] theorem State.setPc_a (v : Addr) : (s.setPc v).a = s.a := rfl
@[simp] theorem State.setPc_x (v : Addr) : (s.setPc v).x = s.x := rfl
@[simp] theorem State.setPc_y (v : Addr) : (s.setPc v).y = s.y := rfl
@[simp] theorem State.setPc_sp (v : Addr) : (s.setPc v).sp = s.sp := rfl
@[simp] theorem State.setPc_pc (v : Addr) : (s.setPc v).pc = v := rfl
@[simp] theorem State.setPc_p (v : Addr) : (s.setPc v).p = s.p := rfl
@[simp] theorem State.setPc_ram (v : Addr) : (s.setPc v).ram = s.ram := rfl
@[simp] theorem State.setPc_cart (v : Addr) : (s.setPc v).cart = s.cart := rfl
@[simp] theorem State.setPc_ppu (v : Addr) : (s.setPc v).ppu = s.ppu := rfl
@[simp] theorem State.setPc_nmiPending (v : Addr) : (s.setPc v).nmiPending = s.nmiPending := rfl
@[simp] theorem State.setPc_halted (v : Addr) : (s.setPc v).halted = s.halted := rfl
@[simp] theorem State.setPc_stopRequested (v : Addr) : (s.setPc v).stopRequested = s.stopRequested := rfl
@[simp] theorem State.setPc_extModes (v : Addr) : (s.setPc v).extModes = s.extModes := rfl
@[simp] theorem State.setPc_statusReadClearsW (v : Addr) : (s.setPc v).statusReadClearsW = s.statusReadClearsW := rfl
@[simp] theorem State.setPc_draws (v : Addr) : (s.setPc v).draws = s.draws := rfl

@[simp] theorem State.setP_a (v : Byte) : (s.setP v).a = s.a := rfl
@[simp] theorem State.setP_x (v : Byte) : (s.setP v).x = s.x := rfl
@[simp] theorem State.setP_y (v : Byte) : (s.setP v).y = s.y := rfl
@[simp] theorem State.setP_sp (v : Byte) : (s.setP v).sp = s.sp := rfl
@[simp] theorem State.setP_pc (v : Byte) : (s.setP v).pc = s.pc := rfl
@[simp] theorem State.setP_p (v : Byte) : (s.setP v).p = v := rfl
@[simp] theorem State.setP_ram (v : Byte) : (s.setP v).ram = s.ram := rfl
@[simp] theorem State.setP_cart (v : Byte) : (s.setP v).cart = s.cart := rfl
@[simp] theorem State.setP_ppu (v : Byte) : (s.setP v).ppu = s.ppu := rfl
@[simp] theorem State.setP_nmiPending (v : Byte) : (s.setP v).nmiPending = s.nmiPending := rfl
@[simp] theorem State.setP_halted (v : Byte) : (s.setP v).halted = s.halted := rfl
@[simp] theorem State.setP_stopRequested (v : Byte) : (s.setP v).stopRequested = s.stopRequested := rfl
@[simp] theorem State.setP_extModes (v : Byte) : (s.setP v).extModes = s.extModes := rfl
@[simp] theorem State.setP_statusReadClearsW (v : Byte) : (s.setP v).statusReadClearsW = s.statusReadClearsW := rfl
@[simp] theorem State.setP_draws (v : Byte) : (s.setP v).draws = s.draws := rfl

@[simp] theorem State.setRam_a (v : Memory) : (s.setRam v).a = s.a := rfl
@[simp] theorem State.setRam_x (v : Memory) : (s.setRam v).x = s.x := rfl
@[simp] theorem State.setRam_y (v : Memory) : (s.setRam v).y = s.y := rfl
@[simp] theorem State.setRam_sp (v : Memory) : (s.setRam v).sp = s.sp := rfl
@[simp] theorem State.setRam_pc (v : Memory) : (s.setRam v).pc = s.pc := rfl
@[simp] theorem State.setRam_p (v : Memory) : (s.setRam v).p = s.p := rfl
@[simp] theorem State.setRam_ram (v : Memory) : (s.setRam v).ram = v := rfl
@[simp] theorem State.setRam_cart (v : Memory) : (s.setRam v).cart = s.cart := rfl
@[simp] theorem State.setRam_ppu (v : Memory) : (s.setRam v).ppu = s.ppu := rfl
@[simp] theorem State.setRam_nmiPending (v : Memory) : (s.setRam v).nmiPending = s.nmiPending := rfl
@[simp] theorem State.setRam_halted (v : Memory) : (s.setRam v).halted = s.halted := rfl
@[simp] theorem State.setRam_stopRequested (v : Memory) : (s.setRam v).stopRequested = s.stopRequested := rfl
@[simp] theorem State.setRam_extModes (v : Memory) : (s.setRam v).extModes = s.extModes := rfl
@[simp] theorem State.setRam_statusReadClearsW (v : Memory) : (s.setRam v).statusReadClearsW = s.statusReadClearsW := rfl
@[simp] theorem State.setRam_draws (v : Memory) : (s.setRam v).draws = s.draws := rfl

@[simp] theorem State.setPpu_a (v : Ppu) : (s.setPpu v).a = s.a := rfl
@[simp] theorem State.setPpu_x (v : Ppu) : (s.setPpu v).x = s.x := rfl
@[simp] theorem State.setPpu_y (v : Ppu) : (s.setPpu v).y = s.y := rfl
@[simp] theorem State.setPpu_sp (v : Ppu) : (s.setPpu v).sp = s.sp := rfl
@[simp] theorem State.setPpu_pc (v : Ppu) : (s.setPpu v).pc = s.pc := rfl
@[simp] theorem State.setPpu_p (v : Ppu) : (s.setPpu v).p = s.p := rfl
@[simp] theorem State.setPpu_ram (v : Ppu) : (s.setPpu v).ram = s.ram := rfl
@[simp] theorem State.setPpu_cart (v : Ppu) : (s.setPpu v).cart = s.cart := rfl
@[simp] theorem State.setPpu_ppu (v : Ppu) : (s.setPpu v).ppu = v := rfl
@[simp] theorem State.setPpu_nmiPending (v : Ppu) : (s.setPpu v).nmiPending = s.nmiPending := rfl
@[simp] theorem State.setPpu_halted (v : Ppu) : (s.setPpu v).halted = s.halted := rfl
@[simp] theorem State.setPpu_stopRequested (v : Ppu) : (s.setPpu v).stopRequested = s.stopRequested := rfl
@[simp] theorem State.setPpu_extModes (v : Ppu) : (s.setPpu v).extModes = s.extModes := rfl
@[simp] theorem State.setPpu_statusReadClearsW (v : Ppu) : (s.setPpu v).statusReadClearsW = s.statusReadClearsW := rfl
@[simp] theorem State.setPpu_draws (v : Ppu) : (s.setPpu v).draws = s.draws := rfl

@[simp] theorem State.setNmi_a (v : Bool) : (s.setNmi v).a = s.a := rfl
@[simp] theorem State.setNmi_x (v : Bool) : (s.setNmi v).x = s.x := rfl
@[simp] theorem State.setNmi_y (v : Bool) : (s.setNmi v).y = s.y := rfl
@[simp] theorem State.setNmi_sp (v : Bool) : (s.setNmi v).sp = s.sp := rfl
@[simp] theorem State.setNmi_pc (v : Bool) : (s.setNmi v).pc = s.pc := rfl
@[simp] theorem State.setNmi_p (v : Bool) : (s.setNmi v).p = s.p := rfl
@[simp] theorem State.setNmi_ram (v : Bool) : (s.setNmi v).ram = s.ram := rfl
@[simp] theorem State.setNmi_cart (v : Bool) : (s.setNmi v).cart = s.cart := rfl
@[simp] theorem State.setNmi_ppu (v : Bool) : (s.setNmi v).ppu = s.ppu := rfl
@[simp] theorem State.setNmi_nmiPending (v : Bool) : (s.setNmi v).nmiPending = v := rfl
@[simp] theorem State.setNmi_halted (v : Bool) : (s.setNmi v).halted = s.halted := rfl
@[simp] theorem State.setNmi_stopRequested (v : Bool) : (s.setNmi v).stopRequested = s.stopRequested := rfl
@[simp] theorem State.setNmi_extModes (v : Bool) : (s.setNmi v).extModes = s.extModes := rfl
@[simp] theorem State.setNmi_statusReadClearsW (v : Bool) : (s.setNmi v).statusReadClearsW = s.statusReadClearsW := rfl
@[simp] theorem State.setNmi_draws (v : Bool) : (s.setNmi v).draws = s.draws := rfl

@[simp] theorem State.setHalted_a (v : Option Fault) : (s.setHalted v).a = s.a := rfl
@[simp] theorem State.setHalted_x (v : Option Fault) : (s.setHalted v).x = s.x := rfl
@[simp] theorem State.setHalted_y (v : Option Fault) : (s.setHalted v).y = s.y := rfl
@[simp] theorem State.setHalted_sp (v : Option Fault) : (s.setHalted v).sp = s.sp := rfl
@[simp] theorem State.setHalted_pc (v : Option Fault) : (s.setHalted v).pc = s.pc := rfl
@[simp] theorem State.setHalted_p (v : Option Fault) : (s.setHalted v).p = s.p := rfl
@[simp] theorem State.setHalted_ram (v : Option Fault) : (s.setHalted v).ram = s.ram := rfl
@[simp] theorem State.setHalted_cart (v : Option Fault) : (s.setHalted v).cart = s.cart := rfl
@[simp] theorem State.setHalted_ppu (v : Option Fault) : (s.setHalted v).ppu = s.ppu := rfl
@[simp] theorem State.setHalted_nmiPending (v : Option Fault) : (s.setHalted v).nmiPending = s.nmiPending := rfl
@[simp] theorem State.setHalted_halted (v : Option Fault) : (s.setHalted v).halted = v := rfl
@[simp] theorem State.setHalted_stopRequested (v : Option Fault) : (s.setHalted v).stopRequested = s.stopRequested := rfl
@[simp] theorem State.setHalted_extModes (v : Option Fault) : (s.setHalted v).extModes = s.extModes := rfl
@[simp] theorem State.setHalted_statusReadClearsW (v : Option Fault) : (s.setHalted v).statusReadClearsW = s.statusReadClearsW := rfl
@[simp] theorem State.setHalted_draws (v : Option Fault) : (s.setHalted v).draws = s.draws := rfl

@[simp] theorem State.setStop_a (v : Bool) : (s.setStop v).a = s.a := rfl
@[simp] theorem State.setStop_x (v : Bool) : (s.setStop v).x = s.x := rfl
@[simp] theorem State.setStop_y (v : Bool) : (s.setStop v).y = s.y := rfl
@[simp] theorem State.setStop_sp (v : Bool) : (s.setStop v).sp = s.sp := rfl
@[simp] theorem State.setStop_pc (v : Bool) : (s.setStop v).pc = s.pc := rfl
@[simp] theorem State.setStop_p (v : Bool) : (s.setStop v).p = s.p := rfl
@[simp] theorem State.setStop_ram (v : Bool) : (s.setStop v).ram = s.ram := rfl
@[simp] theorem State.setStop_cart (v : Bool) : (s.setStop v).cart = s.cart := rfl
@[simp] theorem State.setStop_ppu (v : Bool) : (s.setStop v).ppu = s.ppu := rfl
@[simp] theorem State.setStop_nmiPending (v : Bool) : (s.setStop v).nmiPending = s.nmiPending := rfl
@[simp] theorem State.setStop_halted (v : Bool) : (s.setStop v).halted = s.halted := rfl
@[simp] theorem State.setStop_stopRequested (v : Bool) : (s.setStop v).stopRequested = v := rfl
@[simp] theorem State.setStop_extModes (v : Bool) : (s.setStop v).extModes = s.extModes := rfl
@[simp] theorem State.setStop_statusReadClearsW (v : Bool) : (s.setStop v).statusReadClearsW = s.statusReadClearsW := rfl
@[simp] theorem State.setStop_draws (v : Bool) : (s.setStop v).draws = s.draws := rfl

end Sys2Proof.Machine
end

