-- ==== Sys2Proof/Laws/Ops.lean ====
section
/-! SUPPORT. What the bus, the stack, interrupt entry and return, and operand access can do, each said
once. -/

namespace Sys2Proof.Machine

@[simp] theorem Res.bind_ok {α β : Type} (v : α) (s : State) (k : α → State → Res β) :
    (Res.ok v s).bind k = k v s := rfl
@[simp] theorem Res.bind_fault {α β : Type} (f : Fault) (s : State) (k : α → State → Res β) :
    (Res.fault f s : Res α).bind k = .fault f s := rfl
@[simp] theorem Res.andThen_ok {α : Type} (v : α) (s : State) (k : α → State → Outcome) :
    (Res.ok v s).andThen k = k v s := rfl
@[simp] theorem Res.andThen_fault {α : Type} (f : Fault) (s : State) (k : α → State → Outcome) :
    (Res.fault f s : Res α).andThen k = .fault f := rfl

/-- A sequence that ends in a fault has it from its first part or from what follows. -/
theorem Res.andThen_eq_fault {α : Type} {r : Res α} {k : α → State → Outcome} {f : Fault}
    (h : r.andThen k = .fault f) : (∃ u, r = .fault f u) ∨ ∃ v u, r = .ok v u ∧ k v u = .fault f := by
  cases r with
  | ok v u => exact .inr ⟨v, u, rfl, h⟩
  | fault g u => cases h; exact .inl ⟨u, rfl⟩

/-- A sequence that ends in a next state has passed through its first part. -/
theorem Res.andThen_next {α : Type} {r : Res α} {k : α → State → Outcome} {t : State}
    (h : r.andThen k = .next t) : ∃ v u, r = .ok v u ∧ k v u = .next t := by
  cases r with
  | ok v u => exact ⟨v, u, rfl, h⟩
  | fault f u => cases h

theorem Res.bind_eq_ok {α β : Type} {r : Res α} {k : α → State → Res β} {w : β} {t : State}
    (h : r.bind k = .ok w t) : ∃ v u, r = .ok v u ∧ k v u = .ok w t := by
  cases r with
  | ok v u => exact ⟨v, u, rfl, h⟩
  | fault f u => cases h

/-! ### Regions -/

theorem regionOf_ram {a : Addr} (h : a.toNat < 0x2000) : regionOf a = .ram := by simp [regionOf, h]

theorem regionOf_ports {a : Addr} (h1 : 0x2000 ≤ a.toNat) (h2 : a.toNat < 0x4000) :
    regionOf a = .ports := by
  simp [regionOf, h2, Nat.not_lt.mpr h1]

theorem regionOf_cartridge {a : Addr} (h : 0x8000 ≤ a.toNat) : regionOf a = .cartridge := by
  simp [regionOf, h, show ¬a.toNat < 0x2000 by omega, show ¬a.toNat < 0x4000 by omega]

theorem regionOf_cases (a : Addr) :
    (regionOf a = .ram ∧ a.toNat < 0x2000) ∨
    (regionOf a = .ports ∧ 0x2000 ≤ a.toNat ∧ a.toNat < 0x4000) ∨
    (regionOf a = .cartridge ∧ 0x8000 ≤ a.toNat) ∨
    (regionOf a = .sink ∧ a = 0x4017#16) ∨
    (regionOf a = .unmapped ∧ a ≠ 0x4017#16 ∧ 0x4000 ≤ a.toNat ∧ a.toNat < 0x8000) := by
  unfold regionOf
  split
  · simp_all
  · split
    · simp_all
    · split
      · simp_all
      · split
        · simp_all
        · simp_all

theorem ramIndex_lt (a : Addr) : ramIndex a < Config.ramSize := Nat.mod_lt _ (by decide)

theorem vramIndex_lt (q : Ppu) : vramIndex q < Config.vramSize := Nat.mod_lt _ (by decide)

/-- The RAM index of a page-zero address is the address itself. -/
@[simp] theorem ramIndex_zext16 (b : Byte) : ramIndex (zext16 b) = b.toNat := by
  have := b.isLt
  rw [ramIndex, toNat_zext16]
  exact Nat.mod_eq_of_lt (by simp only [Config.ramSize]; omega)

theorem toNat_stackAddr (b : Byte) : (stackAddr b).toNat = 0x100 + b.toNat := by
  have := b.isLt
  rw [stackAddr, BitVec.toNat_add, toNat_zext16]
  simp only [BitVec.toNat_ofNat]
  omega

/-- The RAM index of a stack address lies in page one. -/
@[simp] theorem ramIndex_stackAddr (b : Byte) : ramIndex (stackAddr b) = 0x100 + b.toNat := by
  have := b.isLt
  rw [ramIndex, toNat_stackAddr]
  exact Nat.mod_eq_of_lt (by simp only [Config.ramSize]; omega)

/-! ### Bus reads -/

theorem memRead_ram {a : Addr} (h : a.toNat < 0x2000) (s : State) :
    memRead a s = .ok (s.ram.read (ramIndex a)) s := by
  simp [memRead, regionOf_ram h]

theorem memRead_ports {a : Addr} (h1 : 0x2000 ≤ a.toNat) (h2 : a.toNat < 0x4000) (s : State) :
    memRead a s = .ok (portRead (portOf a) s).1 (portRead (portOf a) s).2 := by
  simp [memRead, regionOf_ports h1 h2]

theorem memRead_cartridge {a : Addr} (h : 0x8000 ≤ a.toNat) (s : State) :
    memRead a s = .ok (romByte s.cart a) s := by
  simp [memRead, regionOf_cartridge h]

theorem memRead_unmapped {a : Addr} (h1 : 0x4000 ≤ a.toNat) (h2 : a.toNat < 0x8000) (s : State) :
    memRead a s = .fault (.busFault a) s := by
  rcases regionOf_cases a with ⟨_, h⟩ | ⟨_, _, h⟩ | ⟨_, h⟩ | ⟨h, _⟩ | ⟨h, _⟩
  · omega
  · omega
  · omega
  · simp [memRead, h]
  · simp [memRead, h]

/-- A port read changes at most the VRAM address latch, the toggle and the count of draws. -/
theorem portRead_state (n : Port) (s : State) :
    (portRead n s).2 =
      { s with
        ppu := { s.ppu with v := (portRead n s).2.ppu.v, w := (portRead n s).2.ppu.w }
        draws := (portRead n s).2.draws } := by
  cases n <;> simp [portRead, portReadEffect]
  split <;> rfl

/-- A bus read that succeeds changes at most the VRAM address latch, the toggle and the count of draws. -/
theorem memRead_state {a : Addr} {s u : State} {v : Byte} (h : memRead a s = .ok v u) :
    u = { s with ppu := { s.ppu with v := u.ppu.v, w := u.ppu.w }, draws := u.draws } := by
  unfold memRead at h
  split at h <;> cases h
  · rfl
  · exact portRead_state _ s
  · rfl

/-- A bus read that faults is at an unmapped address and is not performed. -/
theorem memRead_fault {a : Addr} {s u : State} {f : Fault} (h : memRead a s = .fault f u) :
    (0x4000 ≤ a.toNat ∧ a.toNat < 0x8000) ∧ f = .busFault a ∧ u = s := by
  rcases regionOf_cases a with ⟨hr, ha⟩ | ⟨hr, _, ha⟩ | ⟨hr, ha⟩ | ⟨hr, ha⟩ | ⟨hr, _, ha⟩ <;>
    simp only [memRead, hr] at h <;> cases h
  · exact ⟨by rw [ha]; decide, rfl, rfl⟩
  · exact ⟨ha, rfl, rfl⟩

/-! ### Bus writes -/

theorem memWrite_ram {a : Addr} (h : a.toNat < 0x2000) (v : Byte) (s : State) :
    memWrite a v s = .next (s.setRam (s.ram.write (ramIndex a) v)) := by
  simp [memWrite, regionOf_ram h]

theorem memWrite_ports {a : Addr} (h1 : 0x2000 ≤ a.toNat) (h2 : a.toNat < 0x4000) (v : Byte) (s : State) :
    memWrite a v s = .next (s.setPpu (portWrite (portOf a) v s.ppu)) := by
  simp [memWrite, regionOf_ports h1 h2]

theorem memWrite_cartridge {a : Addr} (h : 0x8000 ≤ a.toNat) (v : Byte) (s : State) :
    memWrite a v s = .fault (.busFault a) := by
  simp [memWrite, regionOf_cartridge h]

theorem memWrite_sink (v : Byte) (s : State) : memWrite 0x4017#16 v s = .next s := rfl

/-- A bus write that succeeds changes at most RAM and the PPU. -/
theorem memWrite_cases {a : Addr} {v : Byte} {s t : State} (h : memWrite a v s = .next t) :
    (a.toNat < 0x2000 ∧ t = s.setRam (s.ram.write (ramIndex a) v)) ∨
    (0x2000 ≤ a.toNat ∧ a.toNat < 0x4000 ∧ t = s.setPpu (portWrite (portOf a) v s.ppu)) ∨
    (a = 0x4017#16 ∧ t = s) := by
  rcases regionOf_cases a with ⟨hr, ha⟩ | ⟨hr, ha1, ha2⟩ | ⟨hr, _⟩ | ⟨hr, ha⟩ | ⟨hr, _⟩ <;>
    simp only [memWrite, hr] at h <;> cases h
  · exact .inl ⟨ha, rfl⟩
  · exact .inr (.inl ⟨ha1, ha2, rfl⟩)
  · exact .inr (.inr ⟨ha, rfl⟩)

/-- A bus write that faults is at an address that cannot be written. -/
theorem memWrite_fault {a : Addr} {v : Byte} {s : State} {f : Fault} (h : memWrite a v s = .fault f) :
    0x4000 ≤ a.toNat ∧ a ≠ 0x4017#16 ∧ f = .busFault a := by
  rcases regionOf_cases a with ⟨hr, ha⟩ | ⟨hr, _, ha⟩ | ⟨hr, ha⟩ | ⟨hr, ha⟩ | ⟨hr, h1, ha⟩ <;>
    simp only [memWrite, hr] at h <;> cases h
  · exact ⟨by omega, by rintro rfl; exact absurd ha (by decide), rfl⟩
  · exact ⟨ha.1, h1, rfl⟩

/-- A port write moves no counter and does not touch the status register. -/
theorem portWrite_counters (n : Port) (v : Byte) (q : Ppu) :
    (portWrite n v q).x = q.x ∧ (portWrite n v q).y = q.y ∧ (portWrite n v q).cycle = q.cycle ∧
      (portWrite n v q).status = q.status := by
  cases n <;> simp only [portWrite, and_self]
  all_goals split <;> simp

/-- A port write reaches each register and each array through its own ports only. -/
theorem portWrite_frame (n : Port) (v : Byte) (q : Ppu) :
    (n ≠ .control → (portWrite n v q).ctrl = q.ctrl) ∧
    (n ≠ .mask → (portWrite n v q).mask = q.mask) ∧
    (n ≠ .oamAddress → n ≠ .oamData → (portWrite n v q).oamAddr = q.oamAddr) ∧
    (n ≠ .scroll → (portWrite n v q).scrollX = q.scrollX ∧ (portWrite n v q).scrollY = q.scrollY) ∧
    (n ≠ .data → (portWrite n v q).vram = q.vram) ∧
    (n ≠ .oamData → (portWrite n v q).oam = q.oam) := by
  cases n <;> cases h : q.w <;> simp [portWrite, h]

/-- A port write keeps the two PPU arrays canonical and within their sizes. -/
theorem portWrite_arrays (n : Port) (v : Byte) (q : Ppu)
    (hv : q.vram.wf ∧ q.vram.within Config.vramSize) (ho : q.oam.wf ∧ q.oam.within Config.oamSize) :
    ((portWrite n v q).vram.wf ∧ (portWrite n v q).vram.within Config.vramSize) ∧
    ((portWrite n v q).oam.wf ∧ (portWrite n v q).oam.within Config.oamSize) := by
  have hoam : q.oamAddr.toNat < Config.oamSize := q.oamAddr.isLt
  cases n
  case oamData => exact ⟨hv, Memory.write_wf ho.1 _ _, Memory.write_within ho.2 hoam _⟩
  case data => exact ⟨⟨Memory.write_wf hv.1 _ _, Memory.write_within hv.2 (vramIndex_lt q) _⟩, ho⟩
  case scroll => simp only [portWrite]; split <;> exact ⟨hv, ho⟩
  case address => simp only [portWrite]; split <;> exact ⟨hv, ho⟩
  all_goals exact ⟨hv, ho⟩

/-! ### The stack, written over the bus as R9 writes it -/

/-- `Push(v)` is the bus write at `0x0100 + SP`, then the decrement (R9). -/
theorem memWrite_stackAddr (v : Byte) (s : State) :
    memWrite (stackAddr s.sp) v s = .next ((push v s).setSp s.sp) := by
  rw [memWrite_ram (by have := s.sp.isLt; rw [toNat_stackAddr]; omega)]
  rfl

/-- `Pull()` is the increment, then the bus read at `0x0100 + SP` (R9). -/
theorem memRead_stackAddr (s : State) :
    memRead (stackAddr (pullState s).sp) (pullState s) = .ok (pullByte s) (pullState s) := by
  rw [memRead_ram (by have := (pullState s).sp.isLt; rw [toNat_stackAddr]; omega)]
  rfl

/-- `Read16ZP(p)` is two bus reads in page zero (R9). -/
theorem read16Zp_eq_memRead (b : Byte) (s : State) :
    ((memRead (zext16 b) s).bind fun lo t =>
      (memRead (zext16 (b + 1)) t).bind fun hi u => .ok (pair hi lo) u) = .ok (read16Zp b s) s := by
  have h1 : (zext16 b).toNat < 0x2000 := by have := b.isLt; rw [toNat_zext16]; omega
  have h2 : (zext16 (b + 1)).toNat < 0x2000 := by have := (b + 1).isLt; rw [toNat_zext16]; omega
  rw [memRead_ram h1, Res.bind_ok, memRead_ram h2]
  rfl

@[simp] theorem push_sp (v : Byte) (s : State) : (push v s).sp = s.sp - 1 := rfl
@[simp] theorem push_pc (v : Byte) (s : State) : (push v s).pc = s.pc := rfl
@[simp] theorem push_p (v : Byte) (s : State) : (push v s).p = s.p := rfl
@[simp] theorem push_a (v : Byte) (s : State) : (push v s).a = s.a := by simp [push]
@[simp] theorem push_x (v : Byte) (s : State) : (push v s).x = s.x := by simp [push]
@[simp] theorem push_y (v : Byte) (s : State) : (push v s).y = s.y := by simp [push]
@[simp] theorem push_cart (v : Byte) (s : State) : (push v s).cart = s.cart := by simp [push]
@[simp] theorem push_ppu (v : Byte) (s : State) : (push v s).ppu = s.ppu := by simp [push]
@[simp] theorem push_nmiPending (v : Byte) (s : State) : (push v s).nmiPending = s.nmiPending := by simp [push]
@[simp] theorem push_halted (v : Byte) (s : State) : (push v s).halted = s.halted := by simp [push]
@[simp] theorem push_stopRequested (v : Byte) (s : State) : (push v s).stopRequested = s.stopRequested := by simp [push]
@[simp] theorem push_extModes (v : Byte) (s : State) : (push v s).extModes = s.extModes := by simp [push]
@[simp] theorem push_statusReadClearsW (v : Byte) (s : State) : (push v s).statusReadClearsW = s.statusReadClearsW := by simp [push]
@[simp] theorem push_draws (v : Byte) (s : State) : (push v s).draws = s.draws := by simp [push]
theorem push_state (v : Byte) (s : State) :
    push v s = { s with ram := s.ram.write (0x100 + s.sp.toNat) v, sp := s.sp - 1 } := by
  simp [push, State.setRam, State.setSp]

theorem pushAddr_state (a : Addr) (s : State) :
    pushAddr a s =
      { s with
        ram := (s.ram.write (0x100 + s.sp.toNat) (hiByte a)).write (0x100 + (s.sp - 1).toNat) (loByte a)
        sp := s.sp - 1 - 1 } := by
  simp [pushAddr, push_state]

theorem pullByte_eq (s : State) : pullByte s = s.ram.read (0x100 + (s.sp + 1).toNat) := by
  simp [pullByte]

/-- A pull after a push gives the byte back. -/
@[simp] theorem pullByte_push (v : Byte) (s : State) : pullByte (push v s) = v := by
  rw [pullByte_eq, push_state]
  simp

/-! ### Interrupt entry and return -/

/-- Taking an interrupt pushes the return address high byte first, then the flags byte; it writes `P.I`
and `PC` and nothing else (R331, R232). -/
theorem interruptEntry_state (ret : Addr) (pushed : Byte) (vec : Addr) (s : State) :
    interruptEntry ret pushed vec s =
      { push pushed (push (loByte ret) (push (hiByte ret) s)) with
        p := setFlag .I true s.p, pc := readVector vec s } := rfl

@[simp] theorem interruptEntry_a (ret : Addr) (pushed : Byte) (vec : Addr) (s : State) :
    (interruptEntry ret pushed vec s).a = s.a := by simp [interruptEntry, pushAddr]
@[simp] theorem interruptEntry_x (ret : Addr) (pushed : Byte) (vec : Addr) (s : State) :
    (interruptEntry ret pushed vec s).x = s.x := by simp [interruptEntry, pushAddr]
@[simp] theorem interruptEntry_y (ret : Addr) (pushed : Byte) (vec : Addr) (s : State) :
    (interruptEntry ret pushed vec s).y = s.y := by simp [interruptEntry, pushAddr]
@[simp] theorem interruptEntry_cart (ret : Addr) (pushed : Byte) (vec : Addr) (s : State) :
    (interruptEntry ret pushed vec s).cart = s.cart := by simp [interruptEntry, pushAddr]
@[simp] theorem interruptEntry_ppu (ret : Addr) (pushed : Byte) (vec : Addr) (s : State) :
    (interruptEntry ret pushed vec s).ppu = s.ppu := by simp [interruptEntry, pushAddr]
@[simp] theorem interruptEntry_nmiPending (ret : Addr) (pushed : Byte) (vec : Addr) (s : State) :
    (interruptEntry ret pushed vec s).nmiPending = s.nmiPending := by simp [interruptEntry, pushAddr]
@[simp] theorem interruptEntry_halted (ret : Addr) (pushed : Byte) (vec : Addr) (s : State) :
    (interruptEntry ret pushed vec s).halted = s.halted := by simp [interruptEntry, pushAddr]
@[simp] theorem interruptEntry_stopRequested (ret : Addr) (pushed : Byte) (vec : Addr) (s : State) :
    (interruptEntry ret pushed vec s).stopRequested = s.stopRequested := by simp [interruptEntry, pushAddr]
@[simp] theorem interruptEntry_extModes (ret : Addr) (pushed : Byte) (vec : Addr) (s : State) :
    (interruptEntry ret pushed vec s).extModes = s.extModes := by simp [interruptEntry, pushAddr]
@[simp] theorem interruptEntry_statusReadClearsW (ret : Addr) (pushed : Byte) (vec : Addr) (s : State) :
    (interruptEntry ret pushed vec s).statusReadClearsW = s.statusReadClearsW := by simp [interruptEntry, pushAddr]
@[simp] theorem interruptEntry_draws (ret : Addr) (pushed : Byte) (vec : Addr) (s : State) :
    (interruptEntry ret pushed vec s).draws = s.draws := by simp [interruptEntry, pushAddr]
@[simp] theorem interruptEntry_p (ret : Addr) (pushed : Byte) (vec : Addr) (s : State) :
    (interruptEntry ret pushed vec s).p = setFlag .I true s.p := by simp [interruptEntry, pushAddr]
@[simp] theorem nmiEntry_a (s : State) : (nmiEntry s).a = s.a := by simp [nmiEntry]
@[simp] theorem nmiEntry_x (s : State) : (nmiEntry s).x = s.x := by simp [nmiEntry]
@[simp] theorem nmiEntry_y (s : State) : (nmiEntry s).y = s.y := by simp [nmiEntry]
@[simp] theorem nmiEntry_cart (s : State) : (nmiEntry s).cart = s.cart := by simp [nmiEntry]
@[simp] theorem nmiEntry_ppu (s : State) : (nmiEntry s).ppu = s.ppu := by simp [nmiEntry]
@[simp] theorem nmiEntry_nmiPending (s : State) : (nmiEntry s).nmiPending = s.nmiPending := by simp [nmiEntry]
@[simp] theorem nmiEntry_halted (s : State) : (nmiEntry s).halted = s.halted := by simp [nmiEntry]
@[simp] theorem nmiEntry_stopRequested (s : State) : (nmiEntry s).stopRequested = s.stopRequested := by simp [nmiEntry]
@[simp] theorem nmiEntry_extModes (s : State) : (nmiEntry s).extModes = s.extModes := by simp [nmiEntry]
@[simp] theorem nmiEntry_statusReadClearsW (s : State) : (nmiEntry s).statusReadClearsW = s.statusReadClearsW := by simp [nmiEntry]
@[simp] theorem nmiEntry_draws (s : State) : (nmiEntry s).draws = s.draws := by simp [nmiEntry]
@[simp] theorem nmiEntry_p (s : State) : (nmiEntry s).p = setFlag .I true s.p := by simp [nmiEntry]

/-- The return pulls the flags, then the address low byte first (R233). -/
theorem returnFromInterrupt_state (s : State) :
    returnFromInterrupt s =
      { s with
        p := pulledFlags (s.ram.read (0x100 + (s.sp + 1).toNat)) s.p
        pc := pair (s.ram.read (0x100 + (s.sp + 1 + 1 + 1).toNat)) (s.ram.read (0x100 + (s.sp + 1 + 1).toNat))
        sp := s.sp + 1 + 1 + 1 } := by
  simp [returnFromInterrupt, pullState, pullByte_eq, State.setSp, State.setP, State.setPc]

/-! ### Operand access -/

theorem loadOperand_imm (v : Byte) (s : State) : loadOperand (.imm v) s = .ok v s := rfl

theorem loadOperand_mem (m : MemMode) (s : State) : loadOperand (.mem m) s = memRead (effAddr m s) s := rfl

/-- Reading an operand changes at most the VRAM address latch, the toggle and the count of draws. -/
theorem loadOperand_state {o : Operand} {s u : State} {v : Byte} (h : loadOperand o s = .ok v u) :
    u = { s with ppu := { s.ppu with v := u.ppu.v, w := u.ppu.w }, draws := u.draws } := by
  cases o with
  | imm w => cases h; rfl
  | mem m => exact memRead_state h

/-- A read-modify-write on memory is one bus read and one bus write of the same address. -/
theorem modifyTarget_mem_next {m : MemMode} {op : Byte → Byte → Byte × Byte} {s t : State}
    (h : modifyTarget (.mem m) op s = .next t) :
    ∃ v u, memRead (effAddr m s) s = .ok v u ∧
      memWrite (effAddr m s) (op v u.p).1 (u.setP (op v u.p).2) = .next t :=
  Res.andThen_next h

/-- A read-modify-write on memory that faults has had no side effect: it faults at its read, or its read was of
the cartridge and it faults at its write (R190, R322). -/
theorem modifyTarget_fault {m : MemMode} {op : Byte → Byte → Byte × Byte} {s : State} {f : Fault}
    (h : modifyTarget (.mem m) op s = .fault f) :
    f = .busFault (effAddr m s) ∧
      (memRead (effAddr m s) s = .fault f s ∨ ∃ v, memRead (effAddr m s) s = .ok v s) := by
  rcases Res.andThen_eq_fault h with ⟨u, hr⟩ | ⟨v, u, hr, hw⟩
  · obtain ⟨_, rfl, rfl⟩ := memRead_fault hr
    exact ⟨rfl, .inl hr⟩
  · obtain ⟨ha, _, rfl⟩ := memWrite_fault hw
    refine ⟨rfl, .inr ⟨v, ?_⟩⟩
    by_cases hc : (effAddr m s).toNat < 0x8000
    · rw [memRead_unmapped ha hc] at hr; cases hr
    · rw [memRead_cartridge (by omega)] at hr ⊢; cases hr; rfl

/-- JMP indirect that faults does so at its first pointer byte, before any side effect: both bytes lie in one
page (R116). -/
theorem indirectTarget_fault {addr : Addr} {s u : State} {f : Fault} (h : indirectTarget addr s = .fault f u) :
    memRead addr s = .fault f u ∧ u = s := by
  unfold indirectTarget at h
  cases h1 : memRead addr s with
  | fault g w =>
    rw [h1] at h; cases h
    exact ⟨rfl, (memRead_fault h1).2.2⟩
  | ok lo s1 =>
    rw [h1, Res.bind_ok] at h
    cases h2 : memRead (pair (hiByte addr) (loByte addr + 1)) s1 with
    | ok hi s2 => rw [h2] at h; cases h
    | fault g w =>
      exfalso
      obtain ⟨⟨h3, h4⟩, _⟩ := memRead_fault h2
      rw [toNat_pair] at h3 h4
      have h5 := (loByte addr + 1).isLt
      have h6 : addr.toNat = (hiByte addr).toNat * 256 + (loByte addr).toNat := toNat_eq_bytes addr
      have h7 := (loByte addr).isLt
      rw [memRead_unmapped (by omega) (by omega)] at h1
      cases h1

end Sys2Proof.Machine
end

