-- ==== Sys2Proof/Laws/Instr.lean ====
section
/-! SUPPORT. What each operation shared by several meanings answers when it answers a next state, and one
inversion lemma over all instructions: which parts of the state an instruction can write at all. -/

namespace Sys2Proof.Machine

/-! ### The shared operations -/

theorem lda_next {o : Operand} {s t : State} (h : lda o s = .next t) :
    ∃ v u, loadOperand o s = .ok v u ∧ (u.setA v).setP (setZN v u.p) = t := by
  obtain ⟨v, u, hv, h⟩ := Res.andThen_next h
  exact ⟨v, u, hv, Host.Outcome.next.inj h⟩

theorem ldx_next {o : Operand} {s t : State} (h : ldx o s = .next t) :
    ∃ v u, loadOperand o s = .ok v u ∧ (u.setX v).setP (setZN v u.p) = t := by
  obtain ⟨v, u, hv, h⟩ := Res.andThen_next h
  exact ⟨v, u, hv, Host.Outcome.next.inj h⟩

theorem ldy_next {o : Operand} {s t : State} (h : ldy o s = .next t) :
    ∃ v u, loadOperand o s = .ok v u ∧ (u.setY v).setP (setZN v u.p) = t := by
  obtain ⟨v, u, hv, h⟩ := Res.andThen_next h
  exact ⟨v, u, hv, Host.Outcome.next.inj h⟩

theorem adc_next {o : Operand} {s t : State} (h : adc o s = .next t) :
    ∃ m u, loadOperand o s = .ok m u ∧
      (u.setA (adcSum u.a m u.p).result).setP (sumFlags (adcSum u.a m u.p) u.p) = t := by
  obtain ⟨m, u, hm, h⟩ := Res.andThen_next h
  exact ⟨m, u, hm, Host.Outcome.next.inj h⟩

theorem sbc_next {o : Operand} {s t : State} (h : sbc o s = .next t) :
    ∃ m u, loadOperand o s = .ok m u ∧
      (u.setA (sbcSum u.a m u.p).result).setP (sumFlags (sbcSum u.a m u.p) u.p) = t := by
  obtain ⟨m, u, hm, h⟩ := Res.andThen_next h
  exact ⟨m, u, hm, Host.Outcome.next.inj h⟩

theorem logic_next {op : Byte → Byte → Byte} {o : Operand} {s t : State} (h : logic op o s = .next t) :
    ∃ m u, loadOperand o s = .ok m u ∧ (u.setA (op u.a m)).setP (setZN (op u.a m) u.p) = t := by
  obtain ⟨m, u, hm, h⟩ := Res.andThen_next h
  exact ⟨m, u, hm, Host.Outcome.next.inj h⟩

theorem compareWith_next {r : Byte} {o : Operand} {s t : State} (h : compareWith r o s = .next t) :
    ∃ m u, loadOperand o s = .ok m u ∧ u.setP (compareFlags r m u.p) = t := by
  obtain ⟨m, u, hm, h⟩ := Res.andThen_next h
  exact ⟨m, u, hm, Host.Outcome.next.inj h⟩

theorem bitTest_next {m : MemMode} {s t : State} (h : bitTest m s = .next t) :
    ∃ v u, memRead (effAddr m s) s = .ok v u ∧ u.setP (bitFlags u.a v u.p) = t := by
  obtain ⟨v, u, hv, h⟩ := Res.andThen_next h
  exact ⟨v, u, hv, Host.Outcome.next.inj h⟩

/-- JMP indirect reads its two pointer bytes over the bus, in this order, and writes `PC` (R116, R200). -/
theorem execJmpInd_next {addr : Addr} {s t : State} (h : execJmpInd addr s = .next t) :
    ∃ lo s1 hi s2, memRead addr s = .ok lo s1 ∧
      memRead (pair (hiByte addr) (loByte addr + 1)) s1 = .ok hi s2 ∧ s2.setPc (pair hi lo) = t := by
  obtain ⟨v, u, hv, h⟩ := Res.andThen_next h
  obtain ⟨lo, s1, h1, hv⟩ := Res.bind_eq_ok hv
  obtain ⟨hi, s2, h2, hv⟩ := Res.bind_eq_ok hv
  cases hv
  exact ⟨lo, s1, hi, u, h1, h2, Host.Outcome.next.inj h⟩

/-! ### What an instruction can write -/

/-- `t` differs from `s` at most in the CPU registers, the VRAM address latch, the toggle and the count of
draws. -/
def OnlyRegisters (s t : State) : Prop :=
  t =
    { s with
      a := t.a, x := t.x, y := t.y, sp := t.sp, pc := t.pc, p := t.p
      ppu := { s.ppu with v := t.ppu.v, w := t.ppu.w }, draws := t.draws }

/-- `t` is `s` after some pushes, with `PC` and `P` as they may be. -/
def OnlyPushes (s t : State) : Prop :=
  ∃ bs : List Byte, t = { bs.foldl (fun u b => push b u) s with pc := t.pc, p := t.p }

theorem onlyRegisters_of_eq {s t u : State} (h : (Host.Outcome.next u : Outcome) = .next t)
    (hu : OnlyRegisters s u) : OnlyRegisters s t := Host.Outcome.next.inj h ▸ hu

/-- Reading an operand and then writing CPU registers writes nothing else. -/
theorem onlyRegisters_load {o : Operand} {s u : State} {v : Byte} (h : loadOperand o s = .ok v u)
    (a x y p : Byte) : OnlyRegisters s { u with a := a, x := x, y := y, p := p } := by
  have := loadOperand_state h
  unfold OnlyRegisters
  rw [this]

theorem onlyRegisters_lda {o : Operand} {s t : State} (h : lda o s = .next t) :
    OnlyRegisters s t := by
  obtain ⟨v, u, hv, rfl⟩ := lda_next h
  exact onlyRegisters_load hv _ _ _ _

theorem onlyRegisters_ldx {o : Operand} {s t : State} (h : ldx o s = .next t) :
    OnlyRegisters s t := by
  obtain ⟨v, u, hv, rfl⟩ := ldx_next h
  exact onlyRegisters_load hv _ _ _ _

theorem onlyRegisters_ldy {o : Operand} {s t : State} (h : ldy o s = .next t) :
    OnlyRegisters s t := by
  obtain ⟨v, u, hv, rfl⟩ := ldy_next h
  exact onlyRegisters_load hv _ _ _ _

theorem onlyRegisters_adc {o : Operand} {s t : State} (h : adc o s = .next t) :
    OnlyRegisters s t := by
  obtain ⟨v, u, hv, rfl⟩ := adc_next h
  exact onlyRegisters_load hv _ _ _ _

theorem onlyRegisters_sbc {o : Operand} {s t : State} (h : sbc o s = .next t) :
    OnlyRegisters s t := by
  obtain ⟨v, u, hv, rfl⟩ := sbc_next h
  exact onlyRegisters_load hv _ _ _ _

theorem onlyRegisters_logic {f : Byte → Byte → Byte} {o : Operand} {s t : State} (h : logic f o s = .next t) :
    OnlyRegisters s t := by
  obtain ⟨v, u, hv, rfl⟩ := logic_next h
  exact onlyRegisters_load hv _ _ _ _

theorem onlyRegisters_compareWith {r : Byte} {o : Operand} {s t : State} (h : compareWith r o s = .next t) :
    OnlyRegisters s t := by
  obtain ⟨v, u, hv, rfl⟩ := compareWith_next h
  exact onlyRegisters_load hv _ _ _ _

theorem onlyRegisters_bitTest {m : MemMode} {s t : State} (h : bitTest m s = .next t) :
    OnlyRegisters s t := by
  obtain ⟨v, u, hv, rfl⟩ := bitTest_next h
  exact onlyRegisters_load (o := .mem m) hv _ _ _ _

theorem onlyRegisters_modifyAcc {op : Byte → Byte → Byte × Byte} {s t : State}
    (h : modifyTarget .acc op s = .next t) : OnlyRegisters s t := by cases h; rfl

theorem onlyRegisters_branchIf {c : Bool} {off : Byte} {s t : State} (h : branchIf c off s = .next t) :
    OnlyRegisters s t := by cases h; split <;> rfl

theorem onlyRegisters_writeFlag {f : Flag} {b : Bool} {s t : State} (h : writeFlag f b s = .next t) :
    OnlyRegisters s t := by cases h; rfl

theorem onlyRegisters_jmpInd {addr : Addr} {s t : State} (h : execJmpInd addr s = .next t) :
    OnlyRegisters s t := by
  obtain ⟨lo, s1, hi, s2, h1, h2, rfl⟩ := execJmpInd_next h
  unfold OnlyRegisters
  rw [memRead_state h2, memRead_state h1]
  rfl

theorem onlyPushes_jsr {addr : Addr} {s t : State} (h : execJsr addr s = .next t) : OnlyPushes s t :=
  ⟨[hiByte (s.pc - 1), loByte (s.pc - 1)], by cases h; rfl⟩

theorem onlyPushes_pha {s t : State} (h : execPha s = .next t) : OnlyPushes s t :=
  ⟨[s.a], by cases h; rfl⟩

theorem onlyPushes_php {s t : State} (h : execPhp s = .next t) : OnlyPushes s t :=
  ⟨[s.p], by cases h; rfl⟩

theorem onlyPushes_brk {s t : State} (h : execBrk s = .next t) : OnlyPushes s t :=
  ⟨[hiByte (s.pc + 1), loByte (s.pc + 1), s.p ||| 0x30#8], by cases h; rfl⟩

/-- An instruction that answers a next state writes CPU registers only (but for what its operand read may
do), or makes one bus write, or reads and writes back one operand, or pushes. -/
theorem exec_writes {i : Instr} {s t : State} (h : exec i s = .next t) :
    OnlyRegisters s t ∨
    (∃ m v, memWrite (effAddr m s) v s = .next t) ∨
    (∃ m op, modifyTarget (.mem m) op s = .next t) ∨
    OnlyPushes s t := by
  cases i with
  | ldaImm v => exact .inl (onlyRegisters_lda (o := .imm v) h)
  | ldaZp b1 => exact .inl (onlyRegisters_lda h)
  | ldaZpx b1 => exact .inl (onlyRegisters_lda h)
  | ldaAbs addr => exact .inl (onlyRegisters_lda h)
  | ldaAbsx addr => exact .inl (onlyRegisters_lda h)
  | ldaAbsy addr => exact .inl (onlyRegisters_lda h)
  | ldaIzx b1 => exact .inl (onlyRegisters_lda h)
  | ldaIzy b1 => exact .inl (onlyRegisters_lda h)
  | ldxImm v => exact .inl (onlyRegisters_ldx (o := .imm v) h)
  | ldxZp b1 => exact .inl (onlyRegisters_ldx h)
  | ldxZpy b1 => exact .inl (onlyRegisters_ldx h)
  | ldxAbs addr => exact .inl (onlyRegisters_ldx h)
  | ldxAbsy addr => exact .inl (onlyRegisters_ldx h)
  | ldyImm v => exact .inl (onlyRegisters_ldy (o := .imm v) h)
  | ldyZp b1 => exact .inl (onlyRegisters_ldy h)
  | ldyZpx b1 => exact .inl (onlyRegisters_ldy h)
  | ldyAbs addr => exact .inl (onlyRegisters_ldy h)
  | ldyAbsx addr => exact .inl (onlyRegisters_ldy h)
  | staZp b1 => exact .inr (.inl ⟨_, _, h⟩)
  | staZpx b1 => exact .inr (.inl ⟨_, _, h⟩)
  | staAbs addr => exact .inr (.inl ⟨_, _, h⟩)
  | staAbsx addr => exact .inr (.inl ⟨_, _, h⟩)
  | staAbsy addr => exact .inr (.inl ⟨_, _, h⟩)
  | staIzx b1 => exact .inr (.inl ⟨_, _, h⟩)
  | staIzy b1 => exact .inr (.inl ⟨_, _, h⟩)
  | stxZp b1 => exact .inr (.inl ⟨_, _, h⟩)
  | stxZpy b1 => exact .inr (.inl ⟨_, _, h⟩)
  | stxAbs addr => exact .inr (.inl ⟨_, _, h⟩)
  | styZp b1 => exact .inr (.inl ⟨_, _, h⟩)
  | styZpx b1 => exact .inr (.inl ⟨_, _, h⟩)
  | styAbs addr => exact .inr (.inl ⟨_, _, h⟩)
  | tax => exact .inl (onlyRegisters_of_eq h rfl)
  | tay => exact .inl (onlyRegisters_of_eq h rfl)
  | txa => exact .inl (onlyRegisters_of_eq h rfl)
  | tya => exact .inl (onlyRegisters_of_eq h rfl)
  | tsx => exact .inl (onlyRegisters_of_eq h rfl)
  | txs => exact .inl (onlyRegisters_of_eq h rfl)
  | adcImm v => exact .inl (onlyRegisters_adc (o := .imm v) h)
  | adcZp b1 => exact .inl (onlyRegisters_adc h)
  | adcZpx b1 => exact .inl (onlyRegisters_adc h)
  | adcAbs addr => exact .inl (onlyRegisters_adc h)
  | adcAbsx addr => exact .inl (onlyRegisters_adc h)
  | adcAbsy addr => exact .inl (onlyRegisters_adc h)
  | adcIzx b1 => exact .inl (onlyRegisters_adc h)
  | adcIzy b1 => exact .inl (onlyRegisters_adc h)
  | sbcImm v => exact .inl (onlyRegisters_sbc (o := .imm v) h)
  | sbcZp b1 => exact .inl (onlyRegisters_sbc h)
  | sbcZpx b1 => exact .inl (onlyRegisters_sbc h)
  | sbcAbs addr => exact .inl (onlyRegisters_sbc h)
  | sbcAbsx addr => exact .inl (onlyRegisters_sbc h)
  | sbcAbsy addr => exact .inl (onlyRegisters_sbc h)
  | sbcIzx b1 => exact .inl (onlyRegisters_sbc h)
  | sbcIzy b1 => exact .inl (onlyRegisters_sbc h)
  | andImm v => exact .inl (onlyRegisters_logic (o := .imm v) (f := (· &&& ·)) h)
  | andZp b1 => exact .inl (onlyRegisters_logic h)
  | andZpx b1 => exact .inl (onlyRegisters_logic h)
  | andAbs addr => exact .inl (onlyRegisters_logic h)
  | andAbsx addr => exact .inl (onlyRegisters_logic h)
  | andAbsy addr => exact .inl (onlyRegisters_logic h)
  | andIzx b1 => exact .inl (onlyRegisters_logic h)
  | andIzy b1 => exact .inl (onlyRegisters_logic h)
  | oraImm v => exact .inl (onlyRegisters_logic (o := .imm v) (f := (· ||| ·)) h)
  | oraZp b1 => exact .inl (onlyRegisters_logic h)
  | oraZpx b1 => exact .inl (onlyRegisters_logic h)
  | oraAbs addr => exact .inl (onlyRegisters_logic h)
  | oraAbsx addr => exact .inl (onlyRegisters_logic h)
  | oraAbsy addr => exact .inl (onlyRegisters_logic h)
  | oraIzx b1 => exact .inl (onlyRegisters_logic h)
  | oraIzy b1 => exact .inl (onlyRegisters_logic h)
  | eorImm v => exact .inl (onlyRegisters_logic (o := .imm v) (f := (· ^^^ ·)) h)
  | eorZp b1 => exact .inl (onlyRegisters_logic h)
  | eorZpx b1 => exact .inl (onlyRegisters_logic h)
  | eorAbs addr => exact .inl (onlyRegisters_logic h)
  | eorAbsx addr => exact .inl (onlyRegisters_logic h)
  | eorAbsy addr => exact .inl (onlyRegisters_logic h)
  | eorIzx b1 => exact .inl (onlyRegisters_logic h)
  | eorIzy b1 => exact .inl (onlyRegisters_logic h)
  | cmpImm v => exact .inl (onlyRegisters_compareWith (o := .imm v) (r := s.a) h)
  | cmpZp b1 => exact .inl (onlyRegisters_compareWith h)
  | cmpZpx b1 => exact .inl (onlyRegisters_compareWith h)
  | cmpAbs addr => exact .inl (onlyRegisters_compareWith h)
  | cmpAbsx addr => exact .inl (onlyRegisters_compareWith h)
  | cmpAbsy addr => exact .inl (onlyRegisters_compareWith h)
  | cmpIzx b1 => exact .inl (onlyRegisters_compareWith h)
  | cmpIzy b1 => exact .inl (onlyRegisters_compareWith h)
  | cpxImm v => exact .inl (onlyRegisters_compareWith (o := .imm v) (r := s.x) h)
  | cpxZp b1 => exact .inl (onlyRegisters_compareWith h)
  | cpxAbs addr => exact .inl (onlyRegisters_compareWith h)
  | cpyImm v => exact .inl (onlyRegisters_compareWith (o := .imm v) (r := s.y) h)
  | cpyZp b1 => exact .inl (onlyRegisters_compareWith h)
  | cpyAbs addr => exact .inl (onlyRegisters_compareWith h)
  | bitZp b1 => exact .inl (onlyRegisters_bitTest h)
  | bitAbs addr => exact .inl (onlyRegisters_bitTest h)
  | incZp b1 => exact .inr (.inr (.inl ⟨_, _, h⟩))
  | incZpx b1 => exact .inr (.inr (.inl ⟨_, _, h⟩))
  | incAbs addr => exact .inr (.inr (.inl ⟨_, _, h⟩))
  | incAbsx addr => exact .inr (.inr (.inl ⟨_, _, h⟩))
  | decZp b1 => exact .inr (.inr (.inl ⟨_, _, h⟩))
  | decZpx b1 => exact .inr (.inr (.inl ⟨_, _, h⟩))
  | decAbs addr => exact .inr (.inr (.inl ⟨_, _, h⟩))
  | decAbsx addr => exact .inr (.inr (.inl ⟨_, _, h⟩))
  | inx => exact .inl (onlyRegisters_of_eq h rfl)
  | iny => exact .inl (onlyRegisters_of_eq h rfl)
  | dex => exact .inl (onlyRegisters_of_eq h rfl)
  | dey => exact .inl (onlyRegisters_of_eq h rfl)
  | aslAcc => exact .inl (onlyRegisters_modifyAcc h)
  | aslZp b1 => exact .inr (.inr (.inl ⟨_, _, h⟩))
  | aslZpx b1 => exact .inr (.inr (.inl ⟨_, _, h⟩))
  | aslAbs addr => exact .inr (.inr (.inl ⟨_, _, h⟩))
  | aslAbsx addr => exact .inr (.inr (.inl ⟨_, _, h⟩))
  | lsrAcc => exact .inl (onlyRegisters_modifyAcc h)
  | lsrZp b1 => exact .inr (.inr (.inl ⟨_, _, h⟩))
  | lsrZpx b1 => exact .inr (.inr (.inl ⟨_, _, h⟩))
  | lsrAbs addr => exact .inr (.inr (.inl ⟨_, _, h⟩))
  | lsrAbsx addr => exact .inr (.inr (.inl ⟨_, _, h⟩))
  | rolAcc => exact .inl (onlyRegisters_modifyAcc h)
  | rolZp b1 => exact .inr (.inr (.inl ⟨_, _, h⟩))
  | rolZpx b1 => exact .inr (.inr (.inl ⟨_, _, h⟩))
  | rolAbs addr => exact .inr (.inr (.inl ⟨_, _, h⟩))
  | rolAbsx addr => exact .inr (.inr (.inl ⟨_, _, h⟩))
  | rorAcc => exact .inl (onlyRegisters_modifyAcc h)
  | rorZp b1 => exact .inr (.inr (.inl ⟨_, _, h⟩))
  | rorZpx b1 => exact .inr (.inr (.inl ⟨_, _, h⟩))
  | rorAbs addr => exact .inr (.inr (.inl ⟨_, _, h⟩))
  | rorAbsx addr => exact .inr (.inr (.inl ⟨_, _, h⟩))
  | jmpAbs addr => exact .inl (onlyRegisters_of_eq h rfl)
  | jmpInd addr => exact .inl (onlyRegisters_jmpInd h)
  | jsr addr => exact .inr (.inr (.inr (onlyPushes_jsr h)))
  | rts => exact .inl (onlyRegisters_of_eq h rfl)
  | bpl off => exact .inl (onlyRegisters_branchIf h)
  | bmi off => exact .inl (onlyRegisters_branchIf h)
  | bvc off => exact .inl (onlyRegisters_branchIf h)
  | bvs off => exact .inl (onlyRegisters_branchIf h)
  | bcc off => exact .inl (onlyRegisters_branchIf h)
  | bcs off => exact .inl (onlyRegisters_branchIf h)
  | bne off => exact .inl (onlyRegisters_branchIf h)
  | beq off => exact .inl (onlyRegisters_branchIf h)
  | pha => exact .inr (.inr (.inr (onlyPushes_pha h)))
  | pla => exact .inl (onlyRegisters_of_eq h rfl)
  | php => exact .inr (.inr (.inr (onlyPushes_php h)))
  | plp => exact .inl (onlyRegisters_of_eq h rfl)
  | clc => exact .inl (onlyRegisters_writeFlag h)
  | sec => exact .inl (onlyRegisters_writeFlag h)
  | cli => exact .inl (onlyRegisters_writeFlag h)
  | sei => exact .inl (onlyRegisters_writeFlag h)
  | cld => exact .inl (onlyRegisters_writeFlag h)
  | sed => exact .inl (onlyRegisters_writeFlag h)
  | clv => exact .inl (onlyRegisters_writeFlag h)
  | nop => exact .inl (onlyRegisters_of_eq h rfl)
  | brk => exact .inr (.inr (.inr (onlyPushes_brk h)))
  | rti => exact .inl (onlyRegisters_of_eq h rfl)

end Sys2Proof.Machine
end

