-- ==== Sys2Proof/Laws/Ppu.lean ====
section
/-! SUPPORT. What one dot of the PPU can do. -/

namespace Sys2Proof.Machine

/-- Inside a scanline only the two counters move. -/
theorem advanceDot_inside {q : Ppu} (h : q.x + 1 ≠ Config.dotsPerLine) :
    advanceDot q = { q with cycle := q.cycle + 1, x := q.x + 1 } := by
  simp [advanceDot, h]

/-- At the end of a scanline the dot counter starts again and the scanline ends. -/
theorem advanceDot_lineEnd {q : Ppu} (h : q.x + 1 = Config.dotsPerLine) :
    advanceDot q = nextLine { q with cycle := q.cycle + 1 } := by
  simp [advanceDot, h]

/-- A dot changes at most the counters and the status register. -/
theorem advanceDot_state (q : Ppu) :
    advanceDot q =
      { q with
        cycle := q.cycle + 1, x := (advanceDot q).x, y := (advanceDot q).y
        status := (advanceDot q).status } := by
  unfold advanceDot
  split <;> simp [nextLine]

@[simp] theorem advanceDot_cycle (q : Ppu) : (advanceDot q).cycle = q.cycle + 1 := by
  rw [advanceDot_state]

/-- A dot keeps the counters in range, the status register in step with the scanline, and the cycle count in
step with the place in the frame. -/
theorem advanceDot_sound {q : Ppu} (h : q.Sound) : (advanceDot q).Sound := by
  obtain ⟨hx, hy, hs, hc⟩ := h
  simp only [Config.dotsPerLine, Config.linesPerFrame, Config.vblankLine] at hx hy hs hc
  by_cases he : q.x + 1 = 340
  · rw [advanceDot_lineEnd he]
    simp only [nextLine, Ppu.Sound, hs, Config.dotsPerLine, Config.linesPerFrame, Config.vblankLine]
    by_cases h261 : q.y + 1 = 261
    · have : 241 ≤ q.y := by omega
      have hcyc : (q.cycle + 1) % (340 * 261) = 0 := by omega
      simp [h261, this, hcyc]
    · have hcyc : (q.cycle + 1) % (340 * 261) = (q.y + 1) * 340 := by omega
      by_cases h241 : q.y + 1 = 241
      · have : ¬241 ≤ q.y := by omega
        rw [h241] at hcyc
        simp [h241, this, hcyc]
      · have hlt : q.y + 1 < 261 := by omega
        have hiff : 241 ≤ q.y + 1 ↔ 241 ≤ q.y := by omega
        simp [h261, h241, hlt, hiff, hcyc]
  · rw [advanceDot_inside he]
    refine ⟨by simp only [Config.dotsPerLine]; omega, hy, hs, ?_⟩
    simp only [Config.dotsPerLine, Config.linesPerFrame]
    omega

/-- A tick changes the PPU by one dot, and the latch; nothing else. -/
theorem tick_state (s : State) :
    tick s =
      { s with
        ppu := advanceDot s.ppu
        nmiPending := s.nmiPending || nmiCondition (advanceDot s.ppu) } := rfl

@[simp] theorem tick_ppu (s : State) : (tick s).ppu = advanceDot s.ppu := rfl

end Sys2Proof.Machine
end

