-- ==== Sys2Proof/Laws/Coordinator.lean ====
section
/-! SUPPORT. What the fetch, the NMI delivery, the iteration, a fault and the host's actions can do. -/

namespace Sys2Proof.Machine

@[simp] theorem readBytes_zero (a : Addr) (s : State) : readBytes 0 a s = .ok [] s := rfl

theorem readBytes_succ (n : Nat) (a : Addr) (s : State) :
    readBytes (n + 1) a s =
      (memRead a s).bind fun b t => (readBytes n (a + 1) t).bind fun bs u => .ok (b :: bs) u := rfl

/-- A run of bus reads changes at most the VRAM address latch, the toggle and the count of draws. -/
theorem readBytes_state {n : Nat} {a : Addr} {s u : State} {bs : List Byte}
    (h : readBytes n a s = .ok bs u) :
    u = { s with ppu := { s.ppu with v := u.ppu.v, w := u.ppu.w }, draws := u.draws } := by
  induction n generalizing a s bs with
  | zero => cases h; rfl
  | succ n ih =>
    obtain ⟨b, t, hb, h⟩ := Res.bind_eq_ok h
    obtain ⟨cs, u', hc, h⟩ := Res.bind_eq_ok h
    cases h
    rw [ih hc, memRead_state hb]

/-- The fetch changes `PC`, and at most the VRAM address latch, the toggle and the count of draws. -/
theorem fetch_state {s t : State} {i : Instr} (h : fetch s = .ok i t) :
    t = { s with pc := t.pc, ppu := { s.ppu with v := t.ppu.v, w := t.ppu.w }, draws := t.draws } := by
  obtain ⟨opc, u, hu, h⟩ := Res.bind_eq_ok h
  split at h
  · cases h
  · obtain ⟨bs, w, hw, h⟩ := Res.bind_eq_ok h
    split at h
    · cases h
      rw [readBytes_state hw, memRead_state hu]
      rfl
    · cases h

/-- After NMI delivery the latch is clear. -/
theorem deliverNmi_clears (s : State) : (deliverNmi s).nmiPending = false := by
  unfold deliverNmi
  split
  · rfl
  · next h => exact Bool.eq_false_iff.mpr h

@[simp] theorem deliverNmi_a (s : State) : (deliverNmi s).a = s.a := by
  unfold deliverNmi; split <;> simp
@[simp] theorem deliverNmi_x (s : State) : (deliverNmi s).x = s.x := by
  unfold deliverNmi; split <;> simp
@[simp] theorem deliverNmi_y (s : State) : (deliverNmi s).y = s.y := by
  unfold deliverNmi; split <;> simp
@[simp] theorem deliverNmi_cart (s : State) : (deliverNmi s).cart = s.cart := by
  unfold deliverNmi; split <;> simp
@[simp] theorem deliverNmi_ppu (s : State) : (deliverNmi s).ppu = s.ppu := by
  unfold deliverNmi; split <;> simp
@[simp] theorem deliverNmi_halted (s : State) : (deliverNmi s).halted = s.halted := by
  unfold deliverNmi; split <;> simp
@[simp] theorem deliverNmi_stopRequested (s : State) : (deliverNmi s).stopRequested = s.stopRequested := by
  unfold deliverNmi; split <;> simp
@[simp] theorem deliverNmi_extModes (s : State) : (deliverNmi s).extModes = s.extModes := by
  unfold deliverNmi; split <;> simp
@[simp] theorem deliverNmi_statusReadClearsW (s : State) : (deliverNmi s).statusReadClearsW = s.statusReadClearsW := by
  unfold deliverNmi; split <;> simp
@[simp] theorem deliverNmi_draws (s : State) : (deliverNmi s).draws = s.draws := by
  unfold deliverNmi; split <;> simp
@[simp] theorem tick_a (s : State) : (tick s).a = s.a := by rw [tick_state]
@[simp] theorem tick_x (s : State) : (tick s).x = s.x := by rw [tick_state]
@[simp] theorem tick_y (s : State) : (tick s).y = s.y := by rw [tick_state]
@[simp] theorem tick_cart (s : State) : (tick s).cart = s.cart := by rw [tick_state]
@[simp] theorem tick_halted (s : State) : (tick s).halted = s.halted := by rw [tick_state]
@[simp] theorem tick_stopRequested (s : State) : (tick s).stopRequested = s.stopRequested := by rw [tick_state]
@[simp] theorem tick_extModes (s : State) : (tick s).extModes = s.extModes := by rw [tick_state]
@[simp] theorem tick_statusReadClearsW (s : State) : (tick s).statusReadClearsW = s.statusReadClearsW := by rw [tick_state]
@[simp] theorem tick_draws (s : State) : (tick s).draws = s.draws := by rw [tick_state]
@[simp] theorem finishIteration_ppu (s : State) :
    (finishIteration s).ppu = advanceDot (advanceDot (advanceDot s.ppu)) := by simp [finishIteration]
@[simp] theorem finishIteration_a (s : State) : (finishIteration s).a = s.a := by
  simp [finishIteration]
@[simp] theorem finishIteration_x (s : State) : (finishIteration s).x = s.x := by
  simp [finishIteration]
@[simp] theorem finishIteration_y (s : State) : (finishIteration s).y = s.y := by
  simp [finishIteration]
@[simp] theorem finishIteration_cart (s : State) : (finishIteration s).cart = s.cart := by
  simp [finishIteration]
@[simp] theorem finishIteration_halted (s : State) : (finishIteration s).halted = s.halted := by
  simp [finishIteration]
@[simp] theorem finishIteration_stopRequested (s : State) : (finishIteration s).stopRequested = s.stopRequested := by
  simp [finishIteration]
@[simp] theorem finishIteration_extModes (s : State) : (finishIteration s).extModes = s.extModes := by
  simp [finishIteration]
@[simp] theorem finishIteration_statusReadClearsW (s : State) : (finishIteration s).statusReadClearsW = s.statusReadClearsW := by
  simp [finishIteration]
@[simp] theorem finishIteration_draws (s : State) : (finishIteration s).draws = s.draws := by
  simp [finishIteration]

/-- An iteration that goes on: the machine runs, the CPU step succeeded, and ticks and NMI delivery
followed. -/
theorem step_next {s t : State} (h : step s = .next t) :
    s.halted = none ∧ s.stopRequested = false ∧
      ∃ i u v, fetch s = .ok i u ∧ exec i u = .next v ∧ t = finishIteration v := by
  unfold step iterate at h
  split at h
  · cases h
  · next hh =>
    split at h
    · cases h
    · next hs =>
      split at h <;> cases h
      next v hv =>
        obtain ⟨i, u, hf, he⟩ := Res.andThen_next hv
        exact ⟨hh, Bool.eq_false_iff.mpr hs, i, u, v, hf, he, rfl⟩

/-- A running machine whose fetch succeeds does what the instruction does, then what follows every
step. -/
theorem step_of_fetch {s u : State} {i : Instr} (hh : s.halted = none) (hs : s.stopRequested = false)
    (hf : fetch s = .ok i u) :
    step s =
      match exec i u with
      | .next t => .next (finishIteration t)
      | .fault f => .fault f
      | .refused r => .refused r := by
  simp only [step, iterate, hh, hs, cpuStep, hf, Res.andThen_ok]
  cases exec i u <;> rfl

/-- A running machine whose fetch faults ends the step with that fault. -/
theorem step_of_fetch_fault {s : State} {f : Fault} (hh : s.halted = none) (hs : s.stopRequested = false)
    {u : State} (hf : fetch s = .fault f u) : step s = .fault f := by
  simp [step, iterate, hh, hs, cpuStep, hf]

/-- The fetch of an opcode byte that has a row goes on with the operand bytes. -/
theorem fetch_of_row {s t : State} {opc : Byte} {form : Form} (h : memRead s.pc s = .ok opc t)
    (hl : lookup s.extModes opc = some form) :
    fetch s =
      (readBytes (form.length - 1) (s.pc + 1) t).bind fun operands u =>
        match decode s.extModes (opc :: operands) with
        | .ok (i, _) => .ok i (u.setPc (s.pc + BitVec.ofNat 16 form.length))
        | .error _ => .fault (.unimplementedInstruction opc) u := by
  unfold fetch
  rw [h, Res.bind_ok]
  split
  · next hn => rw [hl] at hn; cases hn
  · next g hg => rw [hl] at hg; cases hg; rfl

/-! ### What a fault leaves -/

/-- A faulting step of a running machine has faulted in its CPU step. -/
theorem step_fault {s : State} {f : Fault} (hh : s.halted = none) (h : step s = .fault f) :
    s.stopRequested = false ∧ cpuStep s = .fault f := by
  simp only [step, iterate, hh] at h
  split at h
  · cases h
  · next hs =>
    refine ⟨Bool.eq_false_iff.mpr hs, ?_⟩
    split at h <;> cases h
    assumption

/-- The state a faulting step of a running machine leaves. -/
theorem haltedState_of_fault {s : State} {f : Fault} (hh : s.halted = none) (h : step s = .fault f) :
    haltedState s = some ((faultResidue f s).setHalted (some f)) := by
  have h : iterate s = .fault f := h
  simp only [haltedState, hh, h]

theorem haltedState_of_halted {s : State} {f : Fault} (hh : s.halted = some f) : haltedState s = some s := by
  simp only [haltedState, hh]

theorem step_of_halted {s : State} {f : Fault} (hh : s.halted = some f) : step s = .fault f := by
  simp only [step, iterate, hh]

theorem hostAct_of_halted {s : State} {f : Fault} (hh : s.halted = some f) (act : HostAction) :
    hostAct act s = .fault f := by
  simp only [hostAct, hh]

theorem hostAct_requestStop {s : State} (hh : s.halted = none) :
    hostAct .requestStop s = .next (s.setStop true) := by
  simp only [hostAct, hh]

theorem hostAct_resetCpu {s : State} (hh : s.halted = none) : hostAct .resetCpu s = .next (resetCpu s) := by
  simp only [hostAct, hh]

theorem hostAct_oamDma {s t : State} {page : Byte} (hh : s.halted = none) (h : oamDma page s = .ok () t) :
    hostAct (.oamDma page) s = .next t := by
  simp only [hostAct, hh, h, Res.andThen_ok]

/-- A DMA that faults halts a running machine, with what the transfers before the fault have left. -/
theorem hostAct_oamDma_fault {s t : State} {page : Byte} {f : Fault} (hh : s.halted = none)
    (h : oamDma page s = .fault f t) :
    hostAct (.oamDma page) s = .fault f ∧ hostHaltedState (.oamDma page) s = some (t.setHalted (some f)) := by
  simp only [hostAct, hostHaltedState, hh, h, Res.andThen_fault, and_self]

theorem afterFetch_ok {s u : State} {i : Instr} (h : fetch s = .ok i u) : afterFetch s = u := by
  simp only [afterFetch, h]

theorem afterFetch_fault {s u : State} {f : Fault} (h : fetch s = .fault f u) : afterFetch s = u := by
  simp only [afterFetch, h]

/-- A run of bus reads that faults has changed at most the VRAM address latch, the toggle and the count of
draws. -/
theorem readBytes_fault_state {n : Nat} {a : Addr} {s u : State} {f : Fault} (h : readBytes n a s = .fault f u) :
    u = { s with ppu := { s.ppu with v := u.ppu.v, w := u.ppu.w }, draws := u.draws } := by
  induction n generalizing a s with
  | zero => cases h
  | succ n ih =>
    rw [readBytes_succ] at h
    cases hb : memRead a s with
    | fault g t => rw [hb] at h; cases h; rw [(memRead_fault hb).2.2]
    | ok b t =>
      rw [hb, Res.bind_ok] at h
      cases hc : readBytes n (a + 1) t with
      | ok cs w => rw [hc] at h; cases h
      | fault g w =>
        rw [hc] at h; cases h
        rw [ih hc, memRead_state hb]

/-- The fetch, also one that faults, changes `PC`, and at most the VRAM address latch, the toggle and the count
of draws. -/
theorem afterFetch_state (s : State) :
    afterFetch s =
      { s with
        pc := (afterFetch s).pc
        ppu := { s.ppu with v := (afterFetch s).ppu.v, w := (afterFetch s).ppu.w }
        draws := (afterFetch s).draws } := by
  cases h : fetch s with
  | ok i u => rw [afterFetch_ok h]; exact fetch_state h
  | fault f u =>
    rw [afterFetch_fault h]
    unfold fetch at h
    cases hm : memRead s.pc s with
    | fault g t => rw [hm] at h; cases h; rw [(memRead_fault hm).2.2]
    | ok opc t =>
      rw [hm, Res.bind_ok] at h
      split at h
      · cases h; rw [memRead_state hm]
      · next form hl =>
        cases hr : readBytes (form.length - 1) (s.pc + 1) t with
        | fault g w => rw [hr] at h; cases h; rw [readBytes_fault_state hr, memRead_state hm]
        | ok bs w =>
          rw [hr, Res.bind_ok] at h
          split at h <;> cases h
          rw [readBytes_state hr, memRead_state hm]

@[simp] theorem obscure_cart (s : State) : (obscure s).cart = s.cart := rfl
@[simp] theorem obscure_nmiPending (s : State) : (obscure s).nmiPending = s.nmiPending := rfl
@[simp] theorem obscure_halted (s : State) : (obscure s).halted = s.halted := rfl
@[simp] theorem obscure_stopRequested (s : State) : (obscure s).stopRequested = s.stopRequested := rfl
@[simp] theorem obscure_extModes (s : State) : (obscure s).extModes = s.extModes := rfl
@[simp] theorem obscure_statusReadClearsW (s : State) : (obscure s).statusReadClearsW = s.statusReadClearsW := rfl

/-- Of the PPU, `obscure` frees the two arrays only. -/
theorem obscure_ppu (s : State) :
    (obscure s).ppu = { s.ppu with oam := (obscure s).ppu.oam, vram := (obscure s).ppu.vram } := by
  simp only [obscure]

theorem freeBytes_wf (n k : Nat) : (freeBytes n k).wf := Memory.ofBytes_wf _

theorem freeBytes_within (n k : Nat) : (freeBytes n k).within k := by
  have h := Memory.ofBytes_within ((List.range k).map fun i => Config.freeByte (n + i))
  rwa [List.length_map, List.length_range] at h

/-! ### OAM DMA -/

theorem oamDmaFrom_succ (n i : Nat) (page : Byte) (s : State) :
    oamDmaFrom (n + 1) i page s =
      (memRead (pair page 0 + BitVec.ofNat 16 i) s).bind fun b t =>
        oamDmaFrom n (i + 1) page
          (t.setPpu
            { t.ppu with oam := t.ppu.oam.write ((t.ppu.oamAddr.toNat + i) % Config.oamSize) b }) := rfl

/-- A DMA can change OAM, the VRAM address latch, the toggle and the count of draws only. -/
theorem oamDmaFrom_state {n i : Nat} {page : Byte} {s t : State} (h : oamDmaFrom n i page s = .ok () t) :
    t =
      { s with
        ppu := { s.ppu with oam := t.ppu.oam, v := t.ppu.v, w := t.ppu.w }
        draws := t.draws } := by
  induction n generalizing i s with
  | zero => cases h; rfl
  | succ n ih =>
    obtain ⟨b, u, hb, h⟩ := Res.bind_eq_ok h
    rw [ih h, memRead_state hb]
    rfl

end Sys2Proof.Machine
end

