-- ==== Sys2Proof/Laws/PerInstr.lean ====
section
/-! SUPPORT. The per-instruction law `OpcodeRow`: each instruction's opcode byte has a row in the table, of the
instruction's length, which gives the instruction back from its operand bytes (30_encoding.md R100, R120,
R124); `EXT_MODES = false` turns it into `Unknown` exactly for the extension rows (R122). -/

namespace Sys2Proof.Laws.OpcodeRow

/-- The row makes the instruction `i` of the operand bytes `tail`. -/
def Reads (f : Form) (i : Instr) (tail : List Byte) : Prop :=
  match f with
  | .f1 j => j = i ∧ tail = []
  | .f2 mk => ∃ b1, mk b1 = i ∧ tail = [b1]
  | .f3 mk => ∃ addr, mk addr = i ∧ tail = [loByte addr, hiByte addr]

/-- The row of the opcode byte of `i`, in both profiles. -/
def Statement (i : Instr) : Prop :=
  ∃ f, lookup true i.opcode = some f ∧ lookup false i.opcode = (if i.isExt then none else some f) ∧
    f.length = (encode i).length ∧ Reads f i i.operandBytes

theorem ldaImm (v : Byte) : Statement (.ldaImm v) := ⟨_, rfl, rfl, rfl, ⟨_, rfl, rfl⟩⟩
theorem ldaZp (b1 : Byte) : Statement (.ldaZp b1) := ⟨_, rfl, rfl, rfl, ⟨_, rfl, rfl⟩⟩
theorem ldaZpx (b1 : Byte) : Statement (.ldaZpx b1) := ⟨_, rfl, rfl, rfl, ⟨_, rfl, rfl⟩⟩
theorem ldaAbs (addr : Addr) : Statement (.ldaAbs addr) := ⟨_, rfl, rfl, rfl, ⟨_, rfl, rfl⟩⟩
theorem ldaAbsx (addr : Addr) : Statement (.ldaAbsx addr) := ⟨_, rfl, rfl, rfl, ⟨_, rfl, rfl⟩⟩
theorem ldaAbsy (addr : Addr) : Statement (.ldaAbsy addr) := ⟨_, rfl, rfl, rfl, ⟨_, rfl, rfl⟩⟩
theorem ldaIzx (b1 : Byte) : Statement (.ldaIzx b1) := ⟨_, rfl, rfl, rfl, ⟨_, rfl, rfl⟩⟩
theorem ldaIzy (b1 : Byte) : Statement (.ldaIzy b1) := ⟨_, rfl, rfl, rfl, ⟨_, rfl, rfl⟩⟩
theorem ldxImm (v : Byte) : Statement (.ldxImm v) := ⟨_, rfl, rfl, rfl, ⟨_, rfl, rfl⟩⟩
theorem ldxZp (b1 : Byte) : Statement (.ldxZp b1) := ⟨_, rfl, rfl, rfl, ⟨_, rfl, rfl⟩⟩
theorem ldxZpy (b1 : Byte) : Statement (.ldxZpy b1) := ⟨_, rfl, rfl, rfl, ⟨_, rfl, rfl⟩⟩
theorem ldxAbs (addr : Addr) : Statement (.ldxAbs addr) := ⟨_, rfl, rfl, rfl, ⟨_, rfl, rfl⟩⟩
theorem ldxAbsy (addr : Addr) : Statement (.ldxAbsy addr) := ⟨_, rfl, rfl, rfl, ⟨_, rfl, rfl⟩⟩
theorem ldyImm (v : Byte) : Statement (.ldyImm v) := ⟨_, rfl, rfl, rfl, ⟨_, rfl, rfl⟩⟩
theorem ldyZp (b1 : Byte) : Statement (.ldyZp b1) := ⟨_, rfl, rfl, rfl, ⟨_, rfl, rfl⟩⟩
theorem ldyZpx (b1 : Byte) : Statement (.ldyZpx b1) := ⟨_, rfl, rfl, rfl, ⟨_, rfl, rfl⟩⟩
theorem ldyAbs (addr : Addr) : Statement (.ldyAbs addr) := ⟨_, rfl, rfl, rfl, ⟨_, rfl, rfl⟩⟩
theorem ldyAbsx (addr : Addr) : Statement (.ldyAbsx addr) := ⟨_, rfl, rfl, rfl, ⟨_, rfl, rfl⟩⟩
theorem staZp (b1 : Byte) : Statement (.staZp b1) := ⟨_, rfl, rfl, rfl, ⟨_, rfl, rfl⟩⟩
theorem staZpx (b1 : Byte) : Statement (.staZpx b1) := ⟨_, rfl, rfl, rfl, ⟨_, rfl, rfl⟩⟩
theorem staAbs (addr : Addr) : Statement (.staAbs addr) := ⟨_, rfl, rfl, rfl, ⟨_, rfl, rfl⟩⟩
theorem staAbsx (addr : Addr) : Statement (.staAbsx addr) := ⟨_, rfl, rfl, rfl, ⟨_, rfl, rfl⟩⟩
theorem staAbsy (addr : Addr) : Statement (.staAbsy addr) := ⟨_, rfl, rfl, rfl, ⟨_, rfl, rfl⟩⟩
theorem staIzx (b1 : Byte) : Statement (.staIzx b1) := ⟨_, rfl, rfl, rfl, ⟨_, rfl, rfl⟩⟩
theorem staIzy (b1 : Byte) : Statement (.staIzy b1) := ⟨_, rfl, rfl, rfl, ⟨_, rfl, rfl⟩⟩
theorem stxZp (b1 : Byte) : Statement (.stxZp b1) := ⟨_, rfl, rfl, rfl, ⟨_, rfl, rfl⟩⟩
theorem stxZpy (b1 : Byte) : Statement (.stxZpy b1) := ⟨_, rfl, rfl, rfl, ⟨_, rfl, rfl⟩⟩
theorem stxAbs (addr : Addr) : Statement (.stxAbs addr) := ⟨_, rfl, rfl, rfl, ⟨_, rfl, rfl⟩⟩
theorem styZp (b1 : Byte) : Statement (.styZp b1) := ⟨_, rfl, rfl, rfl, ⟨_, rfl, rfl⟩⟩
theorem styZpx (b1 : Byte) : Statement (.styZpx b1) := ⟨_, rfl, rfl, rfl, ⟨_, rfl, rfl⟩⟩
theorem styAbs (addr : Addr) : Statement (.styAbs addr) := ⟨_, rfl, rfl, rfl, ⟨_, rfl, rfl⟩⟩
theorem tax : Statement .tax := ⟨_, rfl, rfl, rfl, ⟨rfl, rfl⟩⟩
theorem tay : Statement .tay := ⟨_, rfl, rfl, rfl, ⟨rfl, rfl⟩⟩
theorem txa : Statement .txa := ⟨_, rfl, rfl, rfl, ⟨rfl, rfl⟩⟩
theorem tya : Statement .tya := ⟨_, rfl, rfl, rfl, ⟨rfl, rfl⟩⟩
theorem tsx : Statement .tsx := ⟨_, rfl, rfl, rfl, ⟨rfl, rfl⟩⟩
theorem txs : Statement .txs := ⟨_, rfl, rfl, rfl, ⟨rfl, rfl⟩⟩
theorem adcImm (v : Byte) : Statement (.adcImm v) := ⟨_, rfl, rfl, rfl, ⟨_, rfl, rfl⟩⟩
theorem adcZp (b1 : Byte) : Statement (.adcZp b1) := ⟨_, rfl, rfl, rfl, ⟨_, rfl, rfl⟩⟩
theorem adcZpx (b1 : Byte) : Statement (.adcZpx b1) := ⟨_, rfl, rfl, rfl, ⟨_, rfl, rfl⟩⟩
theorem adcAbs (addr : Addr) : Statement (.adcAbs addr) := ⟨_, rfl, rfl, rfl, ⟨_, rfl, rfl⟩⟩
theorem adcAbsx (addr : Addr) : Statement (.adcAbsx addr) := ⟨_, rfl, rfl, rfl, ⟨_, rfl, rfl⟩⟩
theorem adcAbsy (addr : Addr) : Statement (.adcAbsy addr) := ⟨_, rfl, rfl, rfl, ⟨_, rfl, rfl⟩⟩
theorem adcIzx (b1 : Byte) : Statement (.adcIzx b1) := ⟨_, rfl, rfl, rfl, ⟨_, rfl, rfl⟩⟩
theorem adcIzy (b1 : Byte) : Statement (.adcIzy b1) := ⟨_, rfl, rfl, rfl, ⟨_, rfl, rfl⟩⟩
theorem sbcImm (v : Byte) : Statement (.sbcImm v) := ⟨_, rfl, rfl, rfl, ⟨_, rfl, rfl⟩⟩
theorem sbcZp (b1 : Byte) : Statement (.sbcZp b1) := ⟨_, rfl, rfl, rfl, ⟨_, rfl, rfl⟩⟩
theorem sbcZpx (b1 : Byte) : Statement (.sbcZpx b1) := ⟨_, rfl, rfl, rfl, ⟨_, rfl, rfl⟩⟩
theorem sbcAbs (addr : Addr) : Statement (.sbcAbs addr) := ⟨_, rfl, rfl, rfl, ⟨_, rfl, rfl⟩⟩
theorem sbcAbsx (addr : Addr) : Statement (.sbcAbsx addr) := ⟨_, rfl, rfl, rfl, ⟨_, rfl, rfl⟩⟩
theorem sbcAbsy (addr : Addr) : Statement (.sbcAbsy addr) := ⟨_, rfl, rfl, rfl, ⟨_, rfl, rfl⟩⟩
theorem sbcIzx (b1 : Byte) : Statement (.sbcIzx b1) := ⟨_, rfl, rfl, rfl, ⟨_, rfl, rfl⟩⟩
theorem sbcIzy (b1 : Byte) : Statement (.sbcIzy b1) := ⟨_, rfl, rfl, rfl, ⟨_, rfl, rfl⟩⟩
theorem andImm (v : Byte) : Statement (.andImm v) := ⟨_, rfl, rfl, rfl, ⟨_, rfl, rfl⟩⟩
theorem andZp (b1 : Byte) : Statement (.andZp b1) := ⟨_, rfl, rfl, rfl, ⟨_, rfl, rfl⟩⟩
theorem andZpx (b1 : Byte) : Statement (.andZpx b1) := ⟨_, rfl, rfl, rfl, ⟨_, rfl, rfl⟩⟩
theorem andAbs (addr : Addr) : Statement (.andAbs addr) := ⟨_, rfl, rfl, rfl, ⟨_, rfl, rfl⟩⟩
theorem andAbsx (addr : Addr) : Statement (.andAbsx addr) := ⟨_, rfl, rfl, rfl, ⟨_, rfl, rfl⟩⟩
theorem andAbsy (addr : Addr) : Statement (.andAbsy addr) := ⟨_, rfl, rfl, rfl, ⟨_, rfl, rfl⟩⟩
theorem andIzx (b1 : Byte) : Statement (.andIzx b1) := ⟨_, rfl, rfl, rfl, ⟨_, rfl, rfl⟩⟩
theorem andIzy (b1 : Byte) : Statement (.andIzy b1) := ⟨_, rfl, rfl, rfl, ⟨_, rfl, rfl⟩⟩
theorem oraImm (v : Byte) : Statement (.oraImm v) := ⟨_, rfl, rfl, rfl, ⟨_, rfl, rfl⟩⟩
theorem oraZp (b1 : Byte) : Statement (.oraZp b1) := ⟨_, rfl, rfl, rfl, ⟨_, rfl, rfl⟩⟩
theorem oraZpx (b1 : Byte) : Statement (.oraZpx b1) := ⟨_, rfl, rfl, rfl, ⟨_, rfl, rfl⟩⟩
theorem oraAbs (addr : Addr) : Statement (.oraAbs addr) := ⟨_, rfl, rfl, rfl, ⟨_, rfl, rfl⟩⟩
theorem oraAbsx (addr : Addr) : Statement (.oraAbsx addr) := ⟨_, rfl, rfl, rfl, ⟨_, rfl, rfl⟩⟩
theorem oraAbsy (addr : Addr) : Statement (.oraAbsy addr) := ⟨_, rfl, rfl, rfl, ⟨_, rfl, rfl⟩⟩
theorem oraIzx (b1 : Byte) : Statement (.oraIzx b1) := ⟨_, rfl, rfl, rfl, ⟨_, rfl, rfl⟩⟩
theorem oraIzy (b1 : Byte) : Statement (.oraIzy b1) := ⟨_, rfl, rfl, rfl, ⟨_, rfl, rfl⟩⟩
theorem eorImm (v : Byte) : Statement (.eorImm v) := ⟨_, rfl, rfl, rfl, ⟨_, rfl, rfl⟩⟩
theorem eorZp (b1 : Byte) : Statement (.eorZp b1) := ⟨_, rfl, rfl, rfl, ⟨_, rfl, rfl⟩⟩
theorem eorZpx (b1 : Byte) : Statement (.eorZpx b1) := ⟨_, rfl, rfl, rfl, ⟨_, rfl, rfl⟩⟩
theorem eorAbs (addr : Addr) : Statement (.eorAbs addr) := ⟨_, rfl, rfl, rfl, ⟨_, rfl, rfl⟩⟩
theorem eorAbsx (addr : Addr) : Statement (.eorAbsx addr) := ⟨_, rfl, rfl, rfl, ⟨_, rfl, rfl⟩⟩
theorem eorAbsy (addr : Addr) : Statement (.eorAbsy addr) := ⟨_, rfl, rfl, rfl, ⟨_, rfl, rfl⟩⟩
theorem eorIzx (b1 : Byte) : Statement (.eorIzx b1) := ⟨_, rfl, rfl, rfl, ⟨_, rfl, rfl⟩⟩
theorem eorIzy (b1 : Byte) : Statement (.eorIzy b1) := ⟨_, rfl, rfl, rfl, ⟨_, rfl, rfl⟩⟩
theorem cmpImm (v : Byte) : Statement (.cmpImm v) := ⟨_, rfl, rfl, rfl, ⟨_, rfl, rfl⟩⟩
theorem cmpZp (b1 : Byte) : Statement (.cmpZp b1) := ⟨_, rfl, rfl, rfl, ⟨_, rfl, rfl⟩⟩
theorem cmpZpx (b1 : Byte) : Statement (.cmpZpx b1) := ⟨_, rfl, rfl, rfl, ⟨_, rfl, rfl⟩⟩
theorem cmpAbs (addr : Addr) : Statement (.cmpAbs addr) := ⟨_, rfl, rfl, rfl, ⟨_, rfl, rfl⟩⟩
theorem cmpAbsx (addr : Addr) : Statement (.cmpAbsx addr) := ⟨_, rfl, rfl, rfl, ⟨_, rfl, rfl⟩⟩
theorem cmpAbsy (addr : Addr) : Statement (.cmpAbsy addr) := ⟨_, rfl, rfl, rfl, ⟨_, rfl, rfl⟩⟩
theorem cmpIzx (b1 : Byte) : Statement (.cmpIzx b1) := ⟨_, rfl, rfl, rfl, ⟨_, rfl, rfl⟩⟩
theorem cmpIzy (b1 : Byte) : Statement (.cmpIzy b1) := ⟨_, rfl, rfl, rfl, ⟨_, rfl, rfl⟩⟩
theorem cpxImm (v : Byte) : Statement (.cpxImm v) := ⟨_, rfl, rfl, rfl, ⟨_, rfl, rfl⟩⟩
theorem cpxZp (b1 : Byte) : Statement (.cpxZp b1) := ⟨_, rfl, rfl, rfl, ⟨_, rfl, rfl⟩⟩
theorem cpxAbs (addr : Addr) : Statement (.cpxAbs addr) := ⟨_, rfl, rfl, rfl, ⟨_, rfl, rfl⟩⟩
theorem cpyImm (v : Byte) : Statement (.cpyImm v) := ⟨_, rfl, rfl, rfl, ⟨_, rfl, rfl⟩⟩
theorem cpyZp (b1 : Byte) : Statement (.cpyZp b1) := ⟨_, rfl, rfl, rfl, ⟨_, rfl, rfl⟩⟩
theorem cpyAbs (addr : Addr) : Statement (.cpyAbs addr) := ⟨_, rfl, rfl, rfl, ⟨_, rfl, rfl⟩⟩
theorem bitZp (b1 : Byte) : Statement (.bitZp b1) := ⟨_, rfl, rfl, rfl, ⟨_, rfl, rfl⟩⟩
theorem bitAbs (addr : Addr) : Statement (.bitAbs addr) := ⟨_, rfl, rfl, rfl, ⟨_, rfl, rfl⟩⟩
theorem incZp (b1 : Byte) : Statement (.incZp b1) := ⟨_, rfl, rfl, rfl, ⟨_, rfl, rfl⟩⟩
theorem incZpx (b1 : Byte) : Statement (.incZpx b1) := ⟨_, rfl, rfl, rfl, ⟨_, rfl, rfl⟩⟩
theorem incAbs (addr : Addr) : Statement (.incAbs addr) := ⟨_, rfl, rfl, rfl, ⟨_, rfl, rfl⟩⟩
theorem incAbsx (addr : Addr) : Statement (.incAbsx addr) := ⟨_, rfl, rfl, rfl, ⟨_, rfl, rfl⟩⟩
theorem decZp (b1 : Byte) : Statement (.decZp b1) := ⟨_, rfl, rfl, rfl, ⟨_, rfl, rfl⟩⟩
theorem decZpx (b1 : Byte) : Statement (.decZpx b1) := ⟨_, rfl, rfl, rfl, ⟨_, rfl, rfl⟩⟩
theorem decAbs (addr : Addr) : Statement (.decAbs addr) := ⟨_, rfl, rfl, rfl, ⟨_, rfl, rfl⟩⟩
theorem decAbsx (addr : Addr) : Statement (.decAbsx addr) := ⟨_, rfl, rfl, rfl, ⟨_, rfl, rfl⟩⟩
theorem inx : Statement .inx := ⟨_, rfl, rfl, rfl, ⟨rfl, rfl⟩⟩
theorem iny : Statement .iny := ⟨_, rfl, rfl, rfl, ⟨rfl, rfl⟩⟩
theorem dex : Statement .dex := ⟨_, rfl, rfl, rfl, ⟨rfl, rfl⟩⟩
theorem dey : Statement .dey := ⟨_, rfl, rfl, rfl, ⟨rfl, rfl⟩⟩
theorem aslAcc : Statement .aslAcc := ⟨_, rfl, rfl, rfl, ⟨rfl, rfl⟩⟩
theorem aslZp (b1 : Byte) : Statement (.aslZp b1) := ⟨_, rfl, rfl, rfl, ⟨_, rfl, rfl⟩⟩
theorem aslZpx (b1 : Byte) : Statement (.aslZpx b1) := ⟨_, rfl, rfl, rfl, ⟨_, rfl, rfl⟩⟩
theorem aslAbs (addr : Addr) : Statement (.aslAbs addr) := ⟨_, rfl, rfl, rfl, ⟨_, rfl, rfl⟩⟩
theorem aslAbsx (addr : Addr) : Statement (.aslAbsx addr) := ⟨_, rfl, rfl, rfl, ⟨_, rfl, rfl⟩⟩
theorem lsrAcc : Statement .lsrAcc := ⟨_, rfl, rfl, rfl, ⟨rfl, rfl⟩⟩
theorem lsrZp (b1 : Byte) : Statement (.lsrZp b1) := ⟨_, rfl, rfl, rfl, ⟨_, rfl, rfl⟩⟩
theorem lsrZpx (b1 : Byte) : Statement (.lsrZpx b1) := ⟨_, rfl, rfl, rfl, ⟨_, rfl, rfl⟩⟩
theorem lsrAbs (addr : Addr) : Statement (.lsrAbs addr) := ⟨_, rfl, rfl, rfl, ⟨_, rfl, rfl⟩⟩
theorem lsrAbsx (addr : Addr) : Statement (.lsrAbsx addr) := ⟨_, rfl, rfl, rfl, ⟨_, rfl, rfl⟩⟩
theorem rolAcc : Statement .rolAcc := ⟨_, rfl, rfl, rfl, ⟨rfl, rfl⟩⟩
theorem rolZp (b1 : Byte) : Statement (.rolZp b1) := ⟨_, rfl, rfl, rfl, ⟨_, rfl, rfl⟩⟩
theorem rolZpx (b1 : Byte) : Statement (.rolZpx b1) := ⟨_, rfl, rfl, rfl, ⟨_, rfl, rfl⟩⟩
theorem rolAbs (addr : Addr) : Statement (.rolAbs addr) := ⟨_, rfl, rfl, rfl, ⟨_, rfl, rfl⟩⟩
theorem rolAbsx (addr : Addr) : Statement (.rolAbsx addr) := ⟨_, rfl, rfl, rfl, ⟨_, rfl, rfl⟩⟩
theorem rorAcc : Statement .rorAcc := ⟨_, rfl, rfl, rfl, ⟨rfl, rfl⟩⟩
theorem rorZp (b1 : Byte) : Statement (.rorZp b1) := ⟨_, rfl, rfl, rfl, ⟨_, rfl, rfl⟩⟩
theorem rorZpx (b1 : Byte) : Statement (.rorZpx b1) := ⟨_, rfl, rfl, rfl, ⟨_, rfl, rfl⟩⟩
theorem rorAbs (addr : Addr) : Statement (.rorAbs addr) := ⟨_, rfl, rfl, rfl, ⟨_, rfl, rfl⟩⟩
theorem rorAbsx (addr : Addr) : Statement (.rorAbsx addr) := ⟨_, rfl, rfl, rfl, ⟨_, rfl, rfl⟩⟩
theorem jmpAbs (addr : Addr) : Statement (.jmpAbs addr) := ⟨_, rfl, rfl, rfl, ⟨_, rfl, rfl⟩⟩
theorem jmpInd (addr : Addr) : Statement (.jmpInd addr) := ⟨_, rfl, rfl, rfl, ⟨_, rfl, rfl⟩⟩
theorem jsr (addr : Addr) : Statement (.jsr addr) := ⟨_, rfl, rfl, rfl, ⟨_, rfl, rfl⟩⟩
theorem rts : Statement .rts := ⟨_, rfl, rfl, rfl, ⟨rfl, rfl⟩⟩
theorem bpl (off : Byte) : Statement (.bpl off) := ⟨_, rfl, rfl, rfl, ⟨_, rfl, rfl⟩⟩
theorem bmi (off : Byte) : Statement (.bmi off) := ⟨_, rfl, rfl, rfl, ⟨_, rfl, rfl⟩⟩
theorem bvc (off : Byte) : Statement (.bvc off) := ⟨_, rfl, rfl, rfl, ⟨_, rfl, rfl⟩⟩
theorem bvs (off : Byte) : Statement (.bvs off) := ⟨_, rfl, rfl, rfl, ⟨_, rfl, rfl⟩⟩
theorem bcc (off : Byte) : Statement (.bcc off) := ⟨_, rfl, rfl, rfl, ⟨_, rfl, rfl⟩⟩
theorem bcs (off : Byte) : Statement (.bcs off) := ⟨_, rfl, rfl, rfl, ⟨_, rfl, rfl⟩⟩
theorem bne (off : Byte) : Statement (.bne off) := ⟨_, rfl, rfl, rfl, ⟨_, rfl, rfl⟩⟩
theorem beq (off : Byte) : Statement (.beq off) := ⟨_, rfl, rfl, rfl, ⟨_, rfl, rfl⟩⟩
theorem pha : Statement .pha := ⟨_, rfl, rfl, rfl, ⟨rfl, rfl⟩⟩
theorem pla : Statement .pla := ⟨_, rfl, rfl, rfl, ⟨rfl, rfl⟩⟩
theorem php : Statement .php := ⟨_, rfl, rfl, rfl, ⟨rfl, rfl⟩⟩
theorem plp : Statement .plp := ⟨_, rfl, rfl, rfl, ⟨rfl, rfl⟩⟩
theorem clc : Statement .clc := ⟨_, rfl, rfl, rfl, ⟨rfl, rfl⟩⟩
theorem sec : Statement .sec := ⟨_, rfl, rfl, rfl, ⟨rfl, rfl⟩⟩
theorem cli : Statement .cli := ⟨_, rfl, rfl, rfl, ⟨rfl, rfl⟩⟩
theorem sei : Statement .sei := ⟨_, rfl, rfl, rfl, ⟨rfl, rfl⟩⟩
theorem cld : Statement .cld := ⟨_, rfl, rfl, rfl, ⟨rfl, rfl⟩⟩
theorem sed : Statement .sed := ⟨_, rfl, rfl, rfl, ⟨rfl, rfl⟩⟩
theorem clv : Statement .clv := ⟨_, rfl, rfl, rfl, ⟨rfl, rfl⟩⟩
theorem nop : Statement .nop := ⟨_, rfl, rfl, rfl, ⟨rfl, rfl⟩⟩
theorem brk : Statement .brk := ⟨_, rfl, rfl, rfl, ⟨rfl, rfl⟩⟩
theorem rti : Statement .rti := ⟨_, rfl, rfl, rfl, ⟨rfl, rfl⟩⟩

end Sys2Proof.Laws.OpcodeRow
end

