-- ==== Sys2Proof/Laws/Decode.lean ====
section
/-! SUPPORT. The opcode table from the side of the instructions: every instruction has its row, and what the
decoder makes of a row. -/

namespace Sys2Proof

/-- Every instruction has its row (R119, R120). -/
theorem opcodeRow (i : Instr) : Laws.OpcodeRow.Statement i := by
  cases i with
  | ldaImm v => exact Laws.OpcodeRow.ldaImm v
  | ldaZp b1 => exact Laws.OpcodeRow.ldaZp b1
  | ldaZpx b1 => exact Laws.OpcodeRow.ldaZpx b1
  | ldaAbs addr => exact Laws.OpcodeRow.ldaAbs addr
  | ldaAbsx addr => exact Laws.OpcodeRow.ldaAbsx addr
  | ldaAbsy addr => exact Laws.OpcodeRow.ldaAbsy addr
  | ldaIzx b1 => exact Laws.OpcodeRow.ldaIzx b1
  | ldaIzy b1 => exact Laws.OpcodeRow.ldaIzy b1
  | ldxImm v => exact Laws.OpcodeRow.ldxImm v
  | ldxZp b1 => exact Laws.OpcodeRow.ldxZp b1
  | ldxZpy b1 => exact Laws.OpcodeRow.ldxZpy b1
  | ldxAbs addr => exact Laws.OpcodeRow.ldxAbs addr
  | ldxAbsy addr => exact Laws.OpcodeRow.ldxAbsy addr
  | ldyImm v => exact Laws.OpcodeRow.ldyImm v
  | ldyZp b1 => exact Laws.OpcodeRow.ldyZp b1
  | ldyZpx b1 => exact Laws.OpcodeRow.ldyZpx b1
  | ldyAbs addr => exact Laws.OpcodeRow.ldyAbs addr
  | ldyAbsx addr => exact Laws.OpcodeRow.ldyAbsx addr
  | staZp b1 => exact Laws.OpcodeRow.staZp b1
  | staZpx b1 => exact Laws.OpcodeRow.staZpx b1
  | staAbs addr => exact Laws.OpcodeRow.staAbs addr
  | staAbsx addr => exact Laws.OpcodeRow.staAbsx addr
  | staAbsy addr => exact Laws.OpcodeRow.staAbsy addr
  | staIzx b1 => exact Laws.OpcodeRow.staIzx b1
  | staIzy b1 => exact Laws.OpcodeRow.staIzy b1
  | stxZp b1 => exact Laws.OpcodeRow.stxZp b1
  | stxZpy b1 => exact Laws.OpcodeRow.stxZpy b1
  | stxAbs addr => exact Laws.OpcodeRow.stxAbs addr
  | styZp b1 => exact Laws.OpcodeRow.styZp b1
  | styZpx b1 => exact Laws.OpcodeRow.styZpx b1
  | styAbs addr => exact Laws.OpcodeRow.styAbs addr
  | tax => exact Laws.OpcodeRow.tax
  | tay => exact Laws.OpcodeRow.tay
  | txa => exact Laws.OpcodeRow.txa
  | tya => exact Laws.OpcodeRow.tya
  | tsx => exact Laws.OpcodeRow.tsx
  | txs => exact Laws.OpcodeRow.txs
  | adcImm v => exact Laws.OpcodeRow.adcImm v
  | adcZp b1 => exact Laws.OpcodeRow.adcZp b1
  | adcZpx b1 => exact Laws.OpcodeRow.adcZpx b1
  | adcAbs addr => exact Laws.OpcodeRow.adcAbs addr
  | adcAbsx addr => exact Laws.OpcodeRow.adcAbsx addr
  | adcAbsy addr => exact Laws.OpcodeRow.adcAbsy addr
  | adcIzx b1 => exact Laws.OpcodeRow.adcIzx b1
  | adcIzy b1 => exact Laws.OpcodeRow.adcIzy b1
  | sbcImm v => exact Laws.OpcodeRow.sbcImm v
  | sbcZp b1 => exact Laws.OpcodeRow.sbcZp b1
  | sbcZpx b1 => exact Laws.OpcodeRow.sbcZpx b1
  | sbcAbs addr => exact Laws.OpcodeRow.sbcAbs addr
  | sbcAbsx addr => exact Laws.OpcodeRow.sbcAbsx addr
  | sbcAbsy addr => exact Laws.OpcodeRow.sbcAbsy addr
  | sbcIzx b1 => exact Laws.OpcodeRow.sbcIzx b1
  | sbcIzy b1 => exact Laws.OpcodeRow.sbcIzy b1
  | andImm v => exact Laws.OpcodeRow.andImm v
  | andZp b1 => exact Laws.OpcodeRow.andZp b1
  | andZpx b1 => exact Laws.OpcodeRow.andZpx b1
  | andAbs addr => exact Laws.OpcodeRow.andAbs addr
  | andAbsx addr => exact Laws.OpcodeRow.andAbsx addr
  | andAbsy addr => exact Laws.OpcodeRow.andAbsy addr
  | andIzx b1 => exact Laws.OpcodeRow.andIzx b1
  | andIzy b1 => exact Laws.OpcodeRow.andIzy b1
  | oraImm v => exact Laws.OpcodeRow.oraImm v
  | oraZp b1 => exact Laws.OpcodeRow.oraZp b1
  | oraZpx b1 => exact Laws.OpcodeRow.oraZpx b1
  | oraAbs addr => exact Laws.OpcodeRow.oraAbs addr
  | oraAbsx addr => exact Laws.OpcodeRow.oraAbsx addr
  | oraAbsy addr => exact Laws.OpcodeRow.oraAbsy addr
  | oraIzx b1 => exact Laws.OpcodeRow.oraIzx b1
  | oraIzy b1 => exact Laws.OpcodeRow.oraIzy b1
  | eorImm v => exact Laws.OpcodeRow.eorImm v
  | eorZp b1 => exact Laws.OpcodeRow.eorZp b1
  | eorZpx b1 => exact Laws.OpcodeRow.eorZpx b1
  | eorAbs addr => exact Laws.OpcodeRow.eorAbs addr
  | eorAbsx addr => exact Laws.OpcodeRow.eorAbsx addr
  | eorAbsy addr => exact Laws.OpcodeRow.eorAbsy addr
  | eorIzx b1 => exact Laws.OpcodeRow.eorIzx b1
  | eorIzy b1 => exact Laws.OpcodeRow.eorIzy b1
  | cmpImm v => exact Laws.OpcodeRow.cmpImm v
  | cmpZp b1 => exact Laws.OpcodeRow.cmpZp b1
  | cmpZpx b1 => exact Laws.OpcodeRow.cmpZpx b1
  | cmpAbs addr => exact Laws.OpcodeRow.cmpAbs addr
  | cmpAbsx addr => exact Laws.OpcodeRow.cmpAbsx addr
  | cmpAbsy addr => exact Laws.OpcodeRow.cmpAbsy addr
  | cmpIzx b1 => exact Laws.OpcodeRow.cmpIzx b1
  | cmpIzy b1 => exact Laws.OpcodeRow.cmpIzy b1
  | cpxImm v => exact Laws.OpcodeRow.cpxImm v
  | cpxZp b1 => exact Laws.OpcodeRow.cpxZp b1
  | cpxAbs addr => exact Laws.OpcodeRow.cpxAbs addr
  | cpyImm v => exact Laws.OpcodeRow.cpyImm v
  | cpyZp b1 => exact Laws.OpcodeRow.cpyZp b1
  | cpyAbs addr => exact Laws.OpcodeRow.cpyAbs addr
  | bitZp b1 => exact Laws.OpcodeRow.bitZp b1
  | bitAbs addr => exact Laws.OpcodeRow.bitAbs addr
  | incZp b1 => exact Laws.OpcodeRow.incZp b1
  | incZpx b1 => exact Laws.OpcodeRow.incZpx b1
  | incAbs addr => exact Laws.OpcodeRow.incAbs addr
  | incAbsx addr => exact Laws.OpcodeRow.incAbsx addr
  | decZp b1 => exact Laws.OpcodeRow.decZp b1
  | decZpx b1 => exact Laws.OpcodeRow.decZpx b1
  | decAbs addr => exact Laws.OpcodeRow.decAbs addr
  | decAbsx addr => exact Laws.OpcodeRow.decAbsx addr
  | inx => exact Laws.OpcodeRow.inx
  | iny => exact Laws.OpcodeRow.iny
  | dex => exact Laws.OpcodeRow.dex
  | dey => exact Laws.OpcodeRow.dey
  | aslAcc => exact Laws.OpcodeRow.aslAcc
  | aslZp b1 => exact Laws.OpcodeRow.aslZp b1
  | aslZpx b1 => exact Laws.OpcodeRow.aslZpx b1
  | aslAbs addr => exact Laws.OpcodeRow.aslAbs addr
  | aslAbsx addr => exact Laws.OpcodeRow.aslAbsx addr
  | lsrAcc => exact Laws.OpcodeRow.lsrAcc
  | lsrZp b1 => exact Laws.OpcodeRow.lsrZp b1
  | lsrZpx b1 => exact Laws.OpcodeRow.lsrZpx b1
  | lsrAbs addr => exact Laws.OpcodeRow.lsrAbs addr
  | lsrAbsx addr => exact Laws.OpcodeRow.lsrAbsx addr
  | rolAcc => exact Laws.OpcodeRow.rolAcc
  | rolZp b1 => exact Laws.OpcodeRow.rolZp b1
  | rolZpx b1 => exact Laws.OpcodeRow.rolZpx b1
  | rolAbs addr => exact Laws.OpcodeRow.rolAbs addr
  | rolAbsx addr => exact Laws.OpcodeRow.rolAbsx addr
  | rorAcc => exact Laws.OpcodeRow.rorAcc
  | rorZp b1 => exact Laws.OpcodeRow.rorZp b1
  | rorZpx b1 => exact Laws.OpcodeRow.rorZpx b1
  | rorAbs addr => exact Laws.OpcodeRow.rorAbs addr
  | rorAbsx addr => exact Laws.OpcodeRow.rorAbsx addr
  | jmpAbs addr => exact Laws.OpcodeRow.jmpAbs addr
  | jmpInd addr => exact Laws.OpcodeRow.jmpInd addr
  | jsr addr => exact Laws.OpcodeRow.jsr addr
  | rts => exact Laws.OpcodeRow.rts
  | bpl off => exact Laws.OpcodeRow.bpl off
  | bmi off => exact Laws.OpcodeRow.bmi off
  | bvc off => exact Laws.OpcodeRow.bvc off
  | bvs off => exact Laws.OpcodeRow.bvs off
  | bcc off => exact Laws.OpcodeRow.bcc off
  | bcs off => exact Laws.OpcodeRow.bcs off
  | bne off => exact Laws.OpcodeRow.bne off
  | beq off => exact Laws.OpcodeRow.beq off
  | pha => exact Laws.OpcodeRow.pha
  | pla => exact Laws.OpcodeRow.pla
  | php => exact Laws.OpcodeRow.php
  | plp => exact Laws.OpcodeRow.plp
  | clc => exact Laws.OpcodeRow.clc
  | sec => exact Laws.OpcodeRow.sec
  | cli => exact Laws.OpcodeRow.cli
  | sei => exact Laws.OpcodeRow.sei
  | cld => exact Laws.OpcodeRow.cld
  | sed => exact Laws.OpcodeRow.sed
  | clv => exact Laws.OpcodeRow.clv
  | nop => exact Laws.OpcodeRow.nop
  | brk => exact Laws.OpcodeRow.brk
  | rti => exact Laws.OpcodeRow.rti

/-- Decoding when the opcode byte has no row. -/
theorem decode_unknown {e : Bool} {opc : Byte} (h : lookup e opc = none) (rest : List Byte) :
    decode e (opc :: rest) = .error (.unknown opc) := by
  simp [decode, h]

/-- Decoding the operand bytes of a row. -/
theorem decode_row {e : Bool} {opc : Byte} {f : Form} {i : Instr} {tail : List Byte}
    (h : lookup e opc = some f) (hr : Laws.OpcodeRow.Reads f i tail) (rest : List Byte) :
    decode e (opc :: (tail ++ rest)) = .ok (i, rest) := by
  cases f with
  | f1 j => obtain ⟨rfl, rfl⟩ := hr; simp [decode, h]
  | f2 mk => obtain ⟨b1, rfl, rfl⟩ := hr; simp [decode, h]
  | f3 mk => obtain ⟨addr, rfl, rfl⟩ := hr; simp [decode, h]

/-- The row of an instruction in the profile that `EXT_MODES = e` selects (R122). -/
theorem lookup_opcode (e : Bool) (i : Instr) :
    ∃ f, lookup e i.opcode = (if i.isExt && !e then none else some f) ∧
      f.length = (encode i).length ∧ Laws.OpcodeRow.Reads f i i.operandBytes := by
  obtain ⟨f, ht, hf, hl, hr⟩ := opcodeRow i
  refine ⟨f, ?_, hl, hr⟩
  cases e
  · simpa using hf
  · simpa using ht

end Sys2Proof
end

