-- ==== Sys2Proof/Laws/Launch.lean ====
section
/-! SUPPORT. The launch sequence: its two refusals as one inversion lemma, and `State.reset` as the launch
of the blank image. -/

namespace Sys2Proof.Machine

/-- A launch that gives a state has parsed the image and accepted its mapper. -/
theorem launch_next {prm : LaunchParams} {s : State} (h : launch prm = .next s) :
    ∃ img cart, parse prm.image = .ok img ∧ insertImage img = .ok cart ∧
      s = applyOverrides prm (resetCpu (construct prm cart)) := by
  unfold launch at h
  split at h
  · cases h
  · next img hp =>
    split at h
    · cases h
    · next cart hc => cases h; exact ⟨img, cart, hp, hc, rfl⟩

theorem Memory.ofBytesFrom_replicate_zero (n i : Nat) :
    Memory.ofBytesFrom i (List.replicate n 0) = [] := by
  induction n generalizing i with
  | zero => rfl
  | succ n ih =>
    rw [List.replicate_succ, Memory.ofBytesFrom, if_pos (by rfl)]
    exact ih _

/-- The launch of the blank image of log entry 1, a mapper-0 header with one PRG bank and no CHR and then a
bank of `n` zeros, with every array zero, no override and the spec's defaults. -/
def blankLaunch (n : Nat) : LaunchParams :=
  { image := [0x4E, 0x45, 0x53, 0x1A, 1, 0, 0, 0, 0, 0, 0, 0, 0, 0, 0, 0] ++ List.replicate n 0
    ramInit := Vector.replicate _ 0, vramInit := Vector.replicate _ 0, oamInit := Vector.replicate _ 0
    pcOverride := none, spOverride := none, extModes := false, statusReadClearsW := false }

theorem parse_of_body (n : Nat) (hn : n = Config.prgBank) :
    parse ([0x4E, 0x45, 0x53, 0x1A, 1, 0, 0, 0, 0, 0, 0, 0, 0, 0, 0, 0] ++ List.replicate n 0) =
      .ok { header := Cartridge.blank.header, prgFile := List.replicate n 0, chrRom := [] } := by
  have hs : (1 : Byte).toNat * Config.prgBank = n := by rw [hn]; rfl
  have hl : (List.replicate n (0 : Byte)).length = n := List.length_replicate
  simp only [List.cons_append, List.nil_append, parse, hs, hl]
  rw [if_neg (by simp), if_neg (by decide), if_neg (by decide), List.take_of_length_le (le_of_eq hl)]
  simp [Cartridge.blank]

theorem insertImage_of_bank (n : Nat) (hn : n = Config.prgBank) :
    insertImage { header := Cartridge.blank.header, prgFile := List.replicate n 0, chrRom := [] }
      = .ok Cartridge.blank := by
  have hb : prgBuffer (List.replicate n 0) = List.replicate (n + n) 0 := by
    rw [prgBuffer, if_pos (by rw [List.length_replicate, hn]), List.replicate_append_replicate]
  have hm : mapperOf (mapperId Cartridge.blank.header) = some .mapper0 := by decide
  have h2 : n + n = 32768 := by rw [hn]; rfl
  simp only [insertImage, hm, hb, Memory.ofBytes, Memory.ofBytesFrom_replicate_zero, List.length_replicate, h2]
  rfl

/-- `State.reset` is what the launch sequence gives for the blank image. -/
theorem launch_blank (n : Nat) (hn : n = Config.prgBank) : launch (blankLaunch n) = .next State.reset := by
  have hz : ∀ k, Memory.ofBytes (Vector.replicate k (0 : Byte)).toList = [] := fun k => by
    rw [Vector.toList_replicate]; exact Memory.ofBytesFrom_replicate_zero k 0
  simp only [launch, blankLaunch, parse_of_body n hn, insertImage_of_bank n hn, applyOverrides, construct, hz]
  rfl

end Sys2Proof.Machine
end

