-- ==== Sys2Proof/Tests/Slice0.lean ====
section
/-! SUPPORT. Tests of single steps, with expected results from spec/ (95_test_vectors.md unless a comment
says otherwise), and a witness for the hypotheses of every statement that has some. -/

namespace Sys2Proof.Tests

open Sys2Proof Sys2Proof.Machine Sys2Proof.Forms

/-! ### Well-formedness and decoding -/

/-- Each of the 20 instructions of R122 is ill-formed with `EXT_MODES = false`. -/
theorem test_illFormed_in_base :
    (¬WellFormed false (.oraIzy 0x10) ∧ ¬WellFormed false (.oraAbsy 0x0300) ∧
      ¬WellFormed false (.andIzy 0x10) ∧ ¬WellFormed false (.andAbsy 0x0300) ∧
      ¬WellFormed false (.eorIzy 0x10) ∧ ¬WellFormed false (.eorAbsy 0x0300) ∧
      ¬WellFormed false (.jmpInd 0x0300) ∧ ¬WellFormed false (.adcIzy 0x10) ∧
      ¬WellFormed false (.adcAbsy 0x0300) ∧ ¬WellFormed false (.staIzy 0x10)) ∧
    ¬WellFormed false (.stxZpy 0x10) ∧ ¬WellFormed false (.staAbsy 0x0300) ∧
      ¬WellFormed false (.ldaIzy 0x10) ∧ ¬WellFormed false (.ldxZpy 0x10) ∧
      ¬WellFormed false (.ldaAbsy 0x0300) ∧ ¬WellFormed false (.ldxAbsy 0x0300) ∧
      ¬WellFormed false (.cmpIzy 0x10) ∧ ¬WellFormed false (.cmpAbsy 0x0300) ∧
      ¬WellFormed false (.sbcIzy 0x10) ∧ ¬WellFormed false (.sbcAbsy 0x0300) := by decide

/-- The extension profile has them, and the base profile has the rest (R113). -/
theorem test_wellFormed :
    WellFormed true (.ldaIzy 0x10) ∧ WellFormed true (.jmpInd 0x0300) ∧ WellFormed false (.ldaIzx 0x10) ∧
      WellFormed false .brk := by decide

/-- R121: an unassigned byte is unknown in both profiles. -/
theorem test_decode_unassigned :
    decode false [0x02, 0x00, 0x00] = .error (.unknown 0x02) ∧
    decode true [0xFF, 0x00, 0x00] = .error (.unknown 0xFF) := by decide

/-- R119: an instruction whose operand bytes are missing is not decoded, and bytes after it are left. -/
theorem test_decode_length :
    decode false [0xAD, 0x10] = .error .truncated ∧
    decode false [0xA9, 0x10, 0xEA] = .ok (.ldaImm 0x10, [0xEA]) ∧
    decode false [0xEA, 0xEA] = .ok (.nop, [0xEA]) := by decide

/-- Bits numbered as spec/opcode_table.json numbers them: the second byte is bits 15 to 8. -/
theorem test_decodeTableWord :
    decodeTableWord 16 0x9CA9 = some (.ldaImm 0x9C) ∧ decodeTableWord 24 0x123420 = some (.jsr 0x1234) ∧
    decodeTableWord 8 0xAD = some (.ldaAbs 0x0000) ∧ decodeTableWord 8 0x02 = none := by decide

-- R141, and the operand bytes of R102.
theorem test_decode_lda :
    decode false [0xA9, 0x9C] = .ok (.ldaImm 0x9C, []) ∧
    decode false [0xA5, 0x42] = .ok (.ldaZp 0x42, []) ∧
    decode false [0xB5, 0x42] = .ok (.ldaZpx 0x42, []) ∧
    decode false [0xAD, 0xD3, 0xC2] = .ok (.ldaAbs 0xC2D3, []) ∧
    decode false [0xBD, 0xD3, 0xC2] = .ok (.ldaAbsx 0xC2D3, []) ∧
    decode false [0xA1, 0x42] = .ok (.ldaIzx 0x42, []) ∧
    decode true [0xB9, 0xD3, 0xC2] = .ok (.ldaAbsy 0xC2D3, []) ∧
    decode false [0xB9, 0xD3, 0xC2] = .error (.unknown 0xB9) ∧
    decode true [0xB1, 0x42] = .ok (.ldaIzy 0x42, []) ∧
    decode false [0xB1, 0x42] = .error (.unknown 0xB1) := by decide

-- R142, and the operand bytes of R102.
theorem test_decode_ldx :
    decode false [0xA2, 0x9C] = .ok (.ldxImm 0x9C, []) ∧
    decode false [0xA6, 0x42] = .ok (.ldxZp 0x42, []) ∧
    decode false [0xAE, 0xD3, 0xC2] = .ok (.ldxAbs 0xC2D3, []) ∧
    decode true [0xB6, 0x42] = .ok (.ldxZpy 0x42, []) ∧
    decode false [0xB6, 0x42] = .error (.unknown 0xB6) ∧
    decode true [0xBE, 0xD3, 0xC2] = .ok (.ldxAbsy 0xC2D3, []) ∧
    decode false [0xBE, 0xD3, 0xC2] = .error (.unknown 0xBE) := by decide

-- R143, and the operand bytes of R102.
theorem test_decode_ldy :
    decode false [0xA0, 0x9C] = .ok (.ldyImm 0x9C, []) ∧
    decode false [0xA4, 0x42] = .ok (.ldyZp 0x42, []) ∧
    decode false [0xB4, 0x42] = .ok (.ldyZpx 0x42, []) ∧
    decode false [0xAC, 0xD3, 0xC2] = .ok (.ldyAbs 0xC2D3, []) ∧
    decode false [0xBC, 0xD3, 0xC2] = .ok (.ldyAbsx 0xC2D3, []) := by decide

-- R144, and the operand bytes of R102.
theorem test_decode_sta :
    decode false [0x85, 0x42] = .ok (.staZp 0x42, []) ∧
    decode false [0x95, 0x42] = .ok (.staZpx 0x42, []) ∧
    decode false [0x8D, 0xD3, 0xC2] = .ok (.staAbs 0xC2D3, []) ∧
    decode false [0x9D, 0xD3, 0xC2] = .ok (.staAbsx 0xC2D3, []) ∧
    decode false [0x81, 0x42] = .ok (.staIzx 0x42, []) ∧
    decode true [0x99, 0xD3, 0xC2] = .ok (.staAbsy 0xC2D3, []) ∧
    decode false [0x99, 0xD3, 0xC2] = .error (.unknown 0x99) ∧
    decode true [0x91, 0x42] = .ok (.staIzy 0x42, []) ∧
    decode false [0x91, 0x42] = .error (.unknown 0x91) := by decide

-- R145, and the operand bytes of R102.
theorem test_decode_stx :
    decode false [0x86, 0x42] = .ok (.stxZp 0x42, []) ∧
    decode false [0x8E, 0xD3, 0xC2] = .ok (.stxAbs 0xC2D3, []) ∧
    decode true [0x96, 0x42] = .ok (.stxZpy 0x42, []) ∧
    decode false [0x96, 0x42] = .error (.unknown 0x96) := by decide

-- R146, and the operand bytes of R102.
theorem test_decode_sty :
    decode false [0x84, 0x42] = .ok (.styZp 0x42, []) ∧
    decode false [0x94, 0x42] = .ok (.styZpx 0x42, []) ∧
    decode false [0x8C, 0xD3, 0xC2] = .ok (.styAbs 0xC2D3, []) := by decide

-- R147, and the operand bytes of R102.
theorem test_decode_tax :
    decode false [0xAA] = .ok (.tax, []) := by decide

-- R148, and the operand bytes of R102.
theorem test_decode_tay :
    decode false [0xA8] = .ok (.tay, []) := by decide

-- R149, and the operand bytes of R102.
theorem test_decode_txa :
    decode false [0x8A] = .ok (.txa, []) := by decide

-- R150, and the operand bytes of R102.
theorem test_decode_tya :
    decode false [0x98] = .ok (.tya, []) := by decide

-- R151, and the operand bytes of R102.
theorem test_decode_tsx :
    decode false [0xBA] = .ok (.tsx, []) := by decide

-- R152, and the operand bytes of R102.
theorem test_decode_txs :
    decode false [0x9A] = .ok (.txs, []) := by decide

-- R160, and the operand bytes of R102.
theorem test_decode_adc :
    decode false [0x69, 0x9C] = .ok (.adcImm 0x9C, []) ∧
    decode false [0x65, 0x42] = .ok (.adcZp 0x42, []) ∧
    decode false [0x75, 0x42] = .ok (.adcZpx 0x42, []) ∧
    decode false [0x6D, 0xD3, 0xC2] = .ok (.adcAbs 0xC2D3, []) ∧
    decode false [0x7D, 0xD3, 0xC2] = .ok (.adcAbsx 0xC2D3, []) ∧
    decode false [0x61, 0x42] = .ok (.adcIzx 0x42, []) ∧
    decode true [0x79, 0xD3, 0xC2] = .ok (.adcAbsy 0xC2D3, []) ∧
    decode false [0x79, 0xD3, 0xC2] = .error (.unknown 0x79) ∧
    decode true [0x71, 0x42] = .ok (.adcIzy 0x42, []) ∧
    decode false [0x71, 0x42] = .error (.unknown 0x71) := by decide

-- R161, and the operand bytes of R102.
theorem test_decode_sbc :
    decode false [0xE9, 0x9C] = .ok (.sbcImm 0x9C, []) ∧
    decode false [0xE5, 0x42] = .ok (.sbcZp 0x42, []) ∧
    decode false [0xF5, 0x42] = .ok (.sbcZpx 0x42, []) ∧
    decode false [0xED, 0xD3, 0xC2] = .ok (.sbcAbs 0xC2D3, []) ∧
    decode false [0xFD, 0xD3, 0xC2] = .ok (.sbcAbsx 0xC2D3, []) ∧
    decode false [0xE1, 0x42] = .ok (.sbcIzx 0x42, []) ∧
    decode true [0xF9, 0xD3, 0xC2] = .ok (.sbcAbsy 0xC2D3, []) ∧
    decode false [0xF9, 0xD3, 0xC2] = .error (.unknown 0xF9) ∧
    decode true [0xF1, 0x42] = .ok (.sbcIzy 0x42, []) ∧
    decode false [0xF1, 0x42] = .error (.unknown 0xF1) := by decide

-- R162, and the operand bytes of R102.
theorem test_decode_and :
    decode false [0x29, 0x9C] = .ok (.andImm 0x9C, []) ∧
    decode false [0x25, 0x42] = .ok (.andZp 0x42, []) ∧
    decode false [0x35, 0x42] = .ok (.andZpx 0x42, []) ∧
    decode false [0x2D, 0xD3, 0xC2] = .ok (.andAbs 0xC2D3, []) ∧
    decode false [0x3D, 0xD3, 0xC2] = .ok (.andAbsx 0xC2D3, []) ∧
    decode false [0x21, 0x42] = .ok (.andIzx 0x42, []) ∧
    decode true [0x39, 0xD3, 0xC2] = .ok (.andAbsy 0xC2D3, []) ∧
    decode false [0x39, 0xD3, 0xC2] = .error (.unknown 0x39) ∧
    decode true [0x31, 0x42] = .ok (.andIzy 0x42, []) ∧
    decode false [0x31, 0x42] = .error (.unknown 0x31) := by decide

-- R163, and the operand bytes of R102.
theorem test_decode_ora :
    decode false [0x09, 0x9C] = .ok (.oraImm 0x9C, []) ∧
    decode false [0x05, 0x42] = .ok (.oraZp 0x42, []) ∧
    decode false [0x15, 0x42] = .ok (.oraZpx 0x42, []) ∧
    decode false [0x0D, 0xD3, 0xC2] = .ok (.oraAbs 0xC2D3, []) ∧
    decode false [0x1D, 0xD3, 0xC2] = .ok (.oraAbsx 0xC2D3, []) ∧
    decode false [0x01, 0x42] = .ok (.oraIzx 0x42, []) ∧
    decode true [0x19, 0xD3, 0xC2] = .ok (.oraAbsy 0xC2D3, []) ∧
    decode false [0x19, 0xD3, 0xC2] = .error (.unknown 0x19) ∧
    decode true [0x11, 0x42] = .ok (.oraIzy 0x42, []) ∧
    decode false [0x11, 0x42] = .error (.unknown 0x11) := by decide

-- R164, and the operand bytes of R102.
theorem test_decode_eor :
    decode false [0x49, 0x9C] = .ok (.eorImm 0x9C, []) ∧
    decode false [0x45, 0x42] = .ok (.eorZp 0x42, []) ∧
    decode false [0x55, 0x42] = .ok (.eorZpx 0x42, []) ∧
    decode false [0x4D, 0xD3, 0xC2] = .ok (.eorAbs 0xC2D3, []) ∧
    decode false [0x5D, 0xD3, 0xC2] = .ok (.eorAbsx 0xC2D3, []) ∧
    decode false [0x41, 0x42] = .ok (.eorIzx 0x42, []) ∧
    decode true [0x59, 0xD3, 0xC2] = .ok (.eorAbsy 0xC2D3, []) ∧
    decode false [0x59, 0xD3, 0xC2] = .error (.unknown 0x59) ∧
    decode true [0x51, 0x42] = .ok (.eorIzy 0x42, []) ∧
    decode false [0x51, 0x42] = .error (.unknown 0x51) := by decide

-- R165, and the operand bytes of R102.
theorem test_decode_cmp :
    decode false [0xC9, 0x9C] = .ok (.cmpImm 0x9C, []) ∧
    decode false [0xC5, 0x42] = .ok (.cmpZp 0x42, []) ∧
    decode false [0xD5, 0x42] = .ok (.cmpZpx 0x42, []) ∧
    decode false [0xCD, 0xD3, 0xC2] = .ok (.cmpAbs 0xC2D3, []) ∧
    decode false [0xDD, 0xD3, 0xC2] = .ok (.cmpAbsx 0xC2D3, []) ∧
    decode false [0xC1, 0x42] = .ok (.cmpIzx 0x42, []) ∧
    decode true [0xD9, 0xD3, 0xC2] = .ok (.cmpAbsy 0xC2D3, []) ∧
    decode false [0xD9, 0xD3, 0xC2] = .error (.unknown 0xD9) ∧
    decode true [0xD1, 0x42] = .ok (.cmpIzy 0x42, []) ∧
    decode false [0xD1, 0x42] = .error (.unknown 0xD1) := by decide

-- R166, and the operand bytes of R102.
theorem test_decode_cpx :
    decode false [0xE0, 0x9C] = .ok (.cpxImm 0x9C, []) ∧
    decode false [0xE4, 0x42] = .ok (.cpxZp 0x42, []) ∧
    decode false [0xEC, 0xD3, 0xC2] = .ok (.cpxAbs 0xC2D3, []) := by decide

-- R167, and the operand bytes of R102.
theorem test_decode_cpy :
    decode false [0xC0, 0x9C] = .ok (.cpyImm 0x9C, []) ∧
    decode false [0xC4, 0x42] = .ok (.cpyZp 0x42, []) ∧
    decode false [0xCC, 0xD3, 0xC2] = .ok (.cpyAbs 0xC2D3, []) := by decide

-- R168, and the operand bytes of R102.
theorem test_decode_bit :
    decode false [0x24, 0x42] = .ok (.bitZp 0x42, []) ∧
    decode false [0x2C, 0xD3, 0xC2] = .ok (.bitAbs 0xC2D3, []) := by decide

-- R169, and the operand bytes of R102.
theorem test_decode_inc :
    decode false [0xE6, 0x42] = .ok (.incZp 0x42, []) ∧
    decode false [0xF6, 0x42] = .ok (.incZpx 0x42, []) ∧
    decode false [0xEE, 0xD3, 0xC2] = .ok (.incAbs 0xC2D3, []) ∧
    decode false [0xFE, 0xD3, 0xC2] = .ok (.incAbsx 0xC2D3, []) := by decide

-- R170, and the operand bytes of R102.
theorem test_decode_dec :
    decode false [0xC6, 0x42] = .ok (.decZp 0x42, []) ∧
    decode false [0xD6, 0x42] = .ok (.decZpx 0x42, []) ∧
    decode false [0xCE, 0xD3, 0xC2] = .ok (.decAbs 0xC2D3, []) ∧
    decode false [0xDE, 0xD3, 0xC2] = .ok (.decAbsx 0xC2D3, []) := by decide

-- R171, and the operand bytes of R102.
theorem test_decode_inx :
    decode false [0xE8] = .ok (.inx, []) := by decide

-- R172, and the operand bytes of R102.
theorem test_decode_iny :
    decode false [0xC8] = .ok (.iny, []) := by decide

-- R173, and the operand bytes of R102.
theorem test_decode_dex :
    decode false [0xCA] = .ok (.dex, []) := by decide

-- R174, and the operand bytes of R102.
theorem test_decode_dey :
    decode false [0x88] = .ok (.dey, []) := by decide

-- R191, and the operand bytes of R102.
theorem test_decode_asl :
    decode false [0x0A] = .ok (.aslAcc, []) ∧
    decode false [0x06, 0x42] = .ok (.aslZp 0x42, []) ∧
    decode false [0x16, 0x42] = .ok (.aslZpx 0x42, []) ∧
    decode false [0x0E, 0xD3, 0xC2] = .ok (.aslAbs 0xC2D3, []) ∧
    decode false [0x1E, 0xD3, 0xC2] = .ok (.aslAbsx 0xC2D3, []) := by decide

-- R192, and the operand bytes of R102.
theorem test_decode_lsr :
    decode false [0x4A] = .ok (.lsrAcc, []) ∧
    decode false [0x46, 0x42] = .ok (.lsrZp 0x42, []) ∧
    decode false [0x56, 0x42] = .ok (.lsrZpx 0x42, []) ∧
    decode false [0x4E, 0xD3, 0xC2] = .ok (.lsrAbs 0xC2D3, []) ∧
    decode false [0x5E, 0xD3, 0xC2] = .ok (.lsrAbsx 0xC2D3, []) := by decide

-- R193, and the operand bytes of R102.
theorem test_decode_rol :
    decode false [0x2A] = .ok (.rolAcc, []) ∧
    decode false [0x26, 0x42] = .ok (.rolZp 0x42, []) ∧
    decode false [0x36, 0x42] = .ok (.rolZpx 0x42, []) ∧
    decode false [0x2E, 0xD3, 0xC2] = .ok (.rolAbs 0xC2D3, []) ∧
    decode false [0x3E, 0xD3, 0xC2] = .ok (.rolAbsx 0xC2D3, []) := by decide

-- R194, and the operand bytes of R102.
theorem test_decode_ror :
    decode false [0x6A] = .ok (.rorAcc, []) ∧
    decode false [0x66, 0x42] = .ok (.rorZp 0x42, []) ∧
    decode false [0x76, 0x42] = .ok (.rorZpx 0x42, []) ∧
    decode false [0x6E, 0xD3, 0xC2] = .ok (.rorAbs 0xC2D3, []) ∧
    decode false [0x7E, 0xD3, 0xC2] = .ok (.rorAbsx 0xC2D3, []) := by decide

-- R200, and the operand bytes of R102.
theorem test_decode_jmp :
    decode false [0x4C, 0xD3, 0xC2] = .ok (.jmpAbs 0xC2D3, []) ∧
    decode true [0x6C, 0xD3, 0xC2] = .ok (.jmpInd 0xC2D3, []) ∧
    decode false [0x6C, 0xD3, 0xC2] = .error (.unknown 0x6C) := by decide

-- R201, and the operand bytes of R102.
theorem test_decode_jsr :
    decode false [0x20, 0xD3, 0xC2] = .ok (.jsr 0xC2D3, []) := by decide

-- R202, and the operand bytes of R102.
theorem test_decode_rts :
    decode false [0x60] = .ok (.rts, []) := by decide

-- R204, and the operand bytes of R102.
theorem test_decode_bpl :
    decode false [0x10, 0xF9] = .ok (.bpl 0xF9, []) := by decide

-- R205, and the operand bytes of R102.
theorem test_decode_bmi :
    decode false [0x30, 0xF9] = .ok (.bmi 0xF9, []) := by decide

-- R206, and the operand bytes of R102.
theorem test_decode_bvc :
    decode false [0x50, 0xF9] = .ok (.bvc 0xF9, []) := by decide

-- R207, and the operand bytes of R102.
theorem test_decode_bvs :
    decode false [0x70, 0xF9] = .ok (.bvs 0xF9, []) := by decide

-- R208, and the operand bytes of R102.
theorem test_decode_bcc :
    decode false [0x90, 0xF9] = .ok (.bcc 0xF9, []) := by decide

-- R209, and the operand bytes of R102.
theorem test_decode_bcs :
    decode false [0xB0, 0xF9] = .ok (.bcs 0xF9, []) := by decide

-- R210, and the operand bytes of R102.
theorem test_decode_bne :
    decode false [0xD0, 0xF9] = .ok (.bne 0xF9, []) := by decide

-- R211, and the operand bytes of R102.
theorem test_decode_beq :
    decode false [0xF0, 0xF9] = .ok (.beq 0xF9, []) := by decide

-- R220, and the operand bytes of R102.
theorem test_decode_pha :
    decode false [0x48] = .ok (.pha, []) := by decide

-- R221, and the operand bytes of R102.
theorem test_decode_pla :
    decode false [0x68] = .ok (.pla, []) := by decide

-- R222, and the operand bytes of R102.
theorem test_decode_php :
    decode false [0x08] = .ok (.php, []) := by decide

-- R223, and the operand bytes of R102.
theorem test_decode_plp :
    decode false [0x28] = .ok (.plp, []) := by decide

-- R224, and the operand bytes of R102.
theorem test_decode_clc :
    decode false [0x18] = .ok (.clc, []) := by decide

-- R225, and the operand bytes of R102.
theorem test_decode_sec :
    decode false [0x38] = .ok (.sec, []) := by decide

-- R226, and the operand bytes of R102.
theorem test_decode_cli :
    decode false [0x58] = .ok (.cli, []) := by decide

-- R227, and the operand bytes of R102.
theorem test_decode_sei :
    decode false [0x78] = .ok (.sei, []) := by decide

-- R228, and the operand bytes of R102.
theorem test_decode_cld :
    decode false [0xD8] = .ok (.cld, []) := by decide

-- R229, and the operand bytes of R102.
theorem test_decode_sed :
    decode false [0xF8] = .ok (.sed, []) := by decide

-- R230, and the operand bytes of R102.
theorem test_decode_clv :
    decode false [0xB8] = .ok (.clv, []) := by decide

-- R231, and the operand bytes of R102.
theorem test_decode_nop :
    decode false [0xEA] = .ok (.nop, []) := by decide

-- R232, and the operand bytes of R102.
theorem test_decode_brk :
    decode false [0x00] = .ok (.brk, []) := by decide

-- R233, and the operand bytes of R102.
theorem test_decode_rti :
    decode false [0x40] = .ok (.rti, []) := by decide

/-! ### Single steps of the CPU -/

/-- The machine of the conventions of 95_test_vectors.md: the code at 0xC000 (and, mirrored, at 0x8000), `PC`
there, `SP = 0xFF`, `P = 0x24`. RAM lists only what a test puts there. -/
def machine (code : List Byte) : State :=
  { State.reset with
    pc := 0xC000, sp := 0xFF
    cart := { Cartridge.blank with prg := Memory.ofBytesFrom 0 code ++ Memory.ofBytesFrom 0x4000 code } }

/-- The same with `EXT_MODES = true`. -/
def extMachine (code : List Byte) : State := { machine code with extModes := true }

/-- The cartridge of the BRK rows: the vector bytes at 0xFFFE are `00 C0`. -/
def brkMachine : State :=
  { machine [] with cart := { Cartridge.blank with prg := Memory.ofBytesFrom 0x7FFE [0x00, 0xC0] } }

/-- Bytes put into RAM. -/
def poke (cells : List (Nat × Byte)) (s : State) : State :=
  { s with ram := cells.foldl (fun m c => m.write c.1 c.2) s.ram }

/-- A, X, Y, SP, P, PC of a next state. -/
def regs : Outcome → Option (Byte × Byte × Byte × Byte × Byte × Addr)
  | .next t => some (t.a, t.x, t.y, t.sp, t.p, t.pc)
  | .fault _ => none
  | .refused _ => none

/-- The fault of an outcome. -/
def faultOf : Outcome → Option Fault
  | .next _ => none
  | .fault f => some f
  | .refused _ => none

/-- RAM bytes of a next state. -/
def ramOf : Outcome → List Nat → List Byte
  | .next t, is => is.map t.ram.read
  | .fault _, _ => []
  | .refused _, _ => []

-- 95_test_vectors.md section 2, `LDA $FFFF,X` from X=02, ram[001]=99.
theorem test_lda_1 :
    regs (cpuStep { poke [(0x001, 0x99)] (machine [0xBD, 0xFF, 0xFF]) with x := 0x02 }) = some (0x99, 0x02, 0x00, 0xFF, 0xA4, 0xC003) := by decide

-- 95_test_vectors.md section 2, `LDA ($FF,X)` from X=00, ram[0FF]=34, ram[000]=02, ram[100]=07, ram[234]=77.
theorem test_lda_2 :
    regs (cpuStep { poke [(0x0FF, 0x34), (0x000, 0x02), (0x100, 0x07), (0x234, 0x77)] (machine [0xA1, 0xFF]) with x := 0x00 }) = some (0x77, 0x00, 0x00, 0xFF, 0x24, 0xC002) := by decide

-- 95_test_vectors.md section 2, `LDY $10,X` from X=01, ram[011]=00.
theorem test_ldy_1 :
    regs (cpuStep { poke [(0x011, 0x00)] (machine [0xB4, 0x10]) with x := 0x01 }) = some (0x00, 0x01, 0x00, 0xFF, 0x26, 0xC002) := by decide

-- 95_test_vectors.md section 2, `LDY $0300,X` from X=FF, ram[3FF]=12.
theorem test_ldy_2 :
    regs (cpuStep { poke [(0x3FF, 0x12)] (machine [0xBC, 0x00, 0x03]) with x := 0xFF }) = some (0x00, 0xFF, 0x12, 0xFF, 0x24, 0xC003) := by decide

-- 95_test_vectors.md section 2, `STA $1A00` from A=81.
theorem test_sta_1 :
    regs (cpuStep { machine [0x8D, 0x00, 0x1A] with a := 0x81 }) = some (0x81, 0x00, 0x00, 0xFF, 0x24, 0xC003) ∧
      ramOf (cpuStep { machine [0x8D, 0x00, 0x1A] with a := 0x81 }) [0x200] = [0x81] := by decide

-- 95_test_vectors.md section 2, `STX $10` from X=EE.
theorem test_stx_1 :
    regs (cpuStep { machine [0x86, 0x10] with x := 0xEE }) = some (0x00, 0xEE, 0x00, 0xFF, 0x24, 0xC002) ∧
      ramOf (cpuStep { machine [0x86, 0x10] with x := 0xEE }) [0x010] = [0xEE] := by decide

-- 95_test_vectors.md section 2, `STY $10,X` from X=F8, Y=07.
theorem test_sty_1 :
    regs (cpuStep { machine [0x94, 0x10] with x := 0xF8, y := 0x07 }) = some (0x00, 0xF8, 0x07, 0xFF, 0x24, 0xC002) ∧
      ramOf (cpuStep { machine [0x94, 0x10] with x := 0xF8, y := 0x07 }) [0x008] = [0x07] := by decide

-- 95_test_vectors.md section 2, `STY $0400` from Y=09.
theorem test_sty_2 :
    regs (cpuStep { machine [0x8C, 0x00, 0x04] with y := 0x09 }) = some (0x00, 0x00, 0x09, 0xFF, 0x24, 0xC003) ∧
      ramOf (cpuStep { machine [0x8C, 0x00, 0x04] with y := 0x09 }) [0x400] = [0x09] := by decide

-- 95_test_vectors.md section 2, `TAX` from A=00, X=05.
theorem test_tax_1 :
    regs (cpuStep { machine [0xAA] with a := 0x00, x := 0x05 }) = some (0x00, 0x00, 0x00, 0xFF, 0x26, 0xC001) := by decide

-- 95_test_vectors.md section 2, `TAY` from A=80.
theorem test_tay_1 :
    regs (cpuStep { machine [0xA8] with a := 0x80 }) = some (0x80, 0x00, 0x80, 0xFF, 0xA4, 0xC001) := by decide

-- 95_test_vectors.md section 2, `TXA` from A=00, X=7F, P=A6.
theorem test_txa_1 :
    regs (cpuStep { machine [0x8A] with a := 0x00, x := 0x7F, p := 0xA6 }) = some (0x7F, 0x7F, 0x00, 0xFF, 0x24, 0xC001) := by decide

-- 95_test_vectors.md section 2, `TYA` from A=01, Y=00.
theorem test_tya_1 :
    regs (cpuStep { machine [0x98] with a := 0x01, y := 0x00 }) = some (0x00, 0x00, 0x00, 0xFF, 0x26, 0xC001) := by decide

-- 95_test_vectors.md section 2, `TSX` from SP=80.
theorem test_tsx_1 :
    regs (cpuStep { machine [0xBA] with sp := 0x80 }) = some (0x00, 0x80, 0x00, 0x80, 0xA4, 0xC001) := by decide

-- 95_test_vectors.md section 2, `TXS` from X=00, SP=FF, P=A4.
theorem test_txs_1 :
    regs (cpuStep { machine [0x9A] with x := 0x00, sp := 0xFF, p := 0xA4 }) = some (0x00, 0x00, 0x00, 0x00, 0xA4, 0xC001) := by decide

-- 95_test_vectors.md section 2, `TXS` from X=80, SP=10, P=26.
theorem test_txs_2 :
    regs (cpuStep { machine [0x9A] with x := 0x80, sp := 0x10, p := 0x26 }) = some (0x00, 0x80, 0x00, 0x80, 0x26, 0xC001) := by decide

-- 95_test_vectors.md section 2, `LDX $F0,Y` from Y=20, ram[010]=3C.
theorem test_ldx_1 :
    regs (cpuStep { poke [(0x010, 0x3C)] (extMachine [0xB6, 0xF0]) with y := 0x20 }) = some (0x00, 0x3C, 0x20, 0xFF, 0x24, 0xC002) := by decide

-- 95_test_vectors.md section 2, `STX $10,Y` from X=4D, Y=01.
theorem test_stx_2 :
    regs (cpuStep { extMachine [0x96, 0x10] with x := 0x4D, y := 0x01 }) = some (0x00, 0x4D, 0x01, 0xFF, 0x24, 0xC002) ∧
      ramOf (cpuStep { extMachine [0x96, 0x10] with x := 0x4D, y := 0x01 }) [0x011] = [0x4D] := by decide

-- 95_test_vectors.md section 2, `STA ($10),Y` from A=99, Y=10, ram[010]=F8, ram[011]=03.
theorem test_sta_2 :
    regs (cpuStep { poke [(0x010, 0xF8), (0x011, 0x03)] (extMachine [0x91, 0x10]) with a := 0x99, y := 0x10 }) = some (0x99, 0x00, 0x10, 0xFF, 0x24, 0xC002) ∧
      ramOf (cpuStep { poke [(0x010, 0xF8), (0x011, 0x03)] (extMachine [0x91, 0x10]) with a := 0x99, y := 0x10 }) [0x408] = [0x99] := by decide

-- 95_test_vectors.md section 2, `LDX $F0,Y` from Y=20, ram[010]=3C.
theorem test_ldx_2 :
    faultOf (cpuStep { poke [(0x010, 0x3C)] (machine [0xB6, 0xF0]) with y := 0x20 }) = some (.unimplementedInstruction 0xB6#8) := by decide

-- 95_test_vectors.md section 3, `ADC #$00` from A=7F, P=25.
theorem test_adc_1 :
    regs (cpuStep { machine [0x69, 0x00] with a := 0x7F, p := 0x25 }) = some (0x80, 0x00, 0x00, 0xFF, 0xE4, 0xC002) := by decide

-- 95_test_vectors.md section 3, `ADC #$99` from A=01, P=2D.
theorem test_adc_2 :
    regs (cpuStep { machine [0x69, 0x99] with a := 0x01, p := 0x2D }) = some (0x9B, 0x00, 0x00, 0xFF, 0xAC, 0xC002) := by decide

-- 95_test_vectors.md section 3, `SBC #$B0` from A=50, P=25.
theorem test_sbc_1 :
    regs (cpuStep { machine [0xE9, 0xB0] with a := 0x50, p := 0x25 }) = some (0xA0, 0x00, 0x00, 0xFF, 0xE4, 0xC002) := by decide

-- 95_test_vectors.md section 3, `SBC $0300,X` from A=FF, X=01, P=25, ram[301]=7F.
theorem test_sbc_2 :
    regs (cpuStep { poke [(0x301, 0x7F)] (machine [0xFD, 0x00, 0x03]) with a := 0xFF, x := 0x01, p := 0x25 }) = some (0x80, 0x01, 0x00, 0xFF, 0xA5, 0xC003) := by decide

-- 95_test_vectors.md section 3, `AND #$F0` from A=9A, P=25.
theorem test_and_1 :
    regs (cpuStep { machine [0x29, 0xF0] with a := 0x9A, p := 0x25 }) = some (0x90, 0x00, 0x00, 0xFF, 0xA5, 0xC002) := by decide

-- 95_test_vectors.md section 3, `ORA #$80` from A=01.
theorem test_ora_1 :
    regs (cpuStep { machine [0x09, 0x80] with a := 0x01 }) = some (0x81, 0x00, 0x00, 0xFF, 0xA4, 0xC002) := by decide

-- 95_test_vectors.md section 3, `EOR #$FF` from A=55.
theorem test_eor_1 :
    regs (cpuStep { machine [0x49, 0xFF] with a := 0x55 }) = some (0xAA, 0x00, 0x00, 0xFF, 0xA4, 0xC002) := by decide

-- 95_test_vectors.md section 3, `EOR $10,X` from A=0F, X=02, ram[012]=F0.
theorem test_eor_2 :
    regs (cpuStep { poke [(0x012, 0xF0)] (machine [0x55, 0x10]) with a := 0x0F, x := 0x02 }) = some (0xFF, 0x02, 0x00, 0xFF, 0xA4, 0xC002) := by decide

-- 95_test_vectors.md section 3, `CMP #$FF` from A=00.
theorem test_cmp_1 :
    regs (cpuStep { machine [0xC9, 0xFF] with a := 0x00 }) = some (0x00, 0x00, 0x00, 0xFF, 0x24, 0xC002) := by decide

-- 95_test_vectors.md section 3, `CPX $10` from X=00, ram[010]=01.
theorem test_cpx_1 :
    regs (cpuStep { poke [(0x010, 0x01)] (machine [0xE4, 0x10]) with x := 0x00 }) = some (0x00, 0x00, 0x00, 0xFF, 0xA4, 0xC002) := by decide

-- 95_test_vectors.md section 3, `CPX $0300` from X=FF, ram[300]=FF.
theorem test_cpx_2 :
    regs (cpuStep { poke [(0x300, 0xFF)] (machine [0xEC, 0x00, 0x03]) with x := 0xFF }) = some (0x00, 0xFF, 0x00, 0xFF, 0x27, 0xC003) := by decide

-- 95_test_vectors.md section 3, `CPY #$00` from Y=00.
theorem test_cpy_1 :
    regs (cpuStep { machine [0xC0, 0x00] with y := 0x00 }) = some (0x00, 0x00, 0x00, 0xFF, 0x27, 0xC002) := by decide

-- 95_test_vectors.md section 3, `CPY $10` from Y=10, ram[010]=90.
theorem test_cpy_2 :
    regs (cpuStep { poke [(0x010, 0x90)] (machine [0xC4, 0x10]) with y := 0x10 }) = some (0x00, 0x00, 0x10, 0xFF, 0xA4, 0xC002) := by decide

-- 95_test_vectors.md section 3, `BIT $10` from A=01, ram[010]=C0.
theorem test_bit_1 :
    regs (cpuStep { poke [(0x010, 0xC0)] (machine [0x24, 0x10]) with a := 0x01 }) = some (0x01, 0x00, 0x00, 0xFF, 0xE6, 0xC002) := by decide

-- 95_test_vectors.md section 3, `BIT $10` from A=FF, P=E6, ram[010]=3F.
theorem test_bit_2 :
    regs (cpuStep { poke [(0x010, 0x3F)] (machine [0x24, 0x10]) with a := 0xFF, p := 0xE6 }) = some (0xFF, 0x00, 0x00, 0xFF, 0x24, 0xC002) := by decide

-- 95_test_vectors.md section 3, `INC $10` from ram[010]=FF.
theorem test_inc_1 :
    regs (cpuStep (poke [(0x010, 0xFF)] (machine [0xE6, 0x10]))) = some (0x00, 0x00, 0x00, 0xFF, 0x26, 0xC002) ∧
      ramOf (cpuStep (poke [(0x010, 0xFF)] (machine [0xE6, 0x10]))) [0x010] = [0x00] := by decide

-- 95_test_vectors.md section 3, `INC $10,X` from X=F0, ram[000]=00.
theorem test_inc_2 :
    regs (cpuStep { poke [(0x000, 0x00)] (machine [0xF6, 0x10]) with x := 0xF0 }) = some (0x00, 0xF0, 0x00, 0xFF, 0x24, 0xC002) ∧
      ramOf (cpuStep { poke [(0x000, 0x00)] (machine [0xF6, 0x10]) with x := 0xF0 }) [0x000] = [0x01] := by decide

-- 95_test_vectors.md section 3, `DEC $10` from ram[010]=00.
theorem test_dec_1 :
    regs (cpuStep (poke [(0x010, 0x00)] (machine [0xC6, 0x10]))) = some (0x00, 0x00, 0x00, 0xFF, 0xA4, 0xC002) ∧
      ramOf (cpuStep (poke [(0x010, 0x00)] (machine [0xC6, 0x10]))) [0x010] = [0xFF] := by decide

-- 95_test_vectors.md section 3, `DEC $0300,X` from X=FF, ram[3FF]=10.
theorem test_dec_2 :
    regs (cpuStep { poke [(0x3FF, 0x10)] (machine [0xDE, 0x00, 0x03]) with x := 0xFF }) = some (0x00, 0xFF, 0x00, 0xFF, 0x24, 0xC003) ∧
      ramOf (cpuStep { poke [(0x3FF, 0x10)] (machine [0xDE, 0x00, 0x03]) with x := 0xFF }) [0x3FF] = [0x0F] := by decide

-- 95_test_vectors.md section 3, `INX` from X=FF.
theorem test_inx_1 :
    regs (cpuStep { machine [0xE8] with x := 0xFF }) = some (0x00, 0x00, 0x00, 0xFF, 0x26, 0xC001) := by decide

-- 95_test_vectors.md section 3, `INY` from Y=FF, P=25.
theorem test_iny_1 :
    regs (cpuStep { machine [0xC8] with y := 0xFF, p := 0x25 }) = some (0x00, 0x00, 0x00, 0xFF, 0x27, 0xC001) := by decide

-- 95_test_vectors.md section 3, `DEX` from X=00.
theorem test_dex_1 :
    regs (cpuStep { machine [0xCA] with x := 0x00 }) = some (0x00, 0xFF, 0x00, 0xFF, 0xA4, 0xC001) := by decide

-- 95_test_vectors.md section 3, `DEY` from Y=80.
theorem test_dey_1 :
    regs (cpuStep { machine [0x88] with y := 0x80 }) = some (0x00, 0x00, 0x7F, 0xFF, 0x24, 0xC001) := by decide

-- 95_test_vectors.md section 3, `AND $0300,Y` from A=3C, Y=00, ram[300]=0F.
theorem test_and_2 :
    regs (cpuStep { poke [(0x300, 0x0F)] (extMachine [0x39, 0x00, 0x03]) with a := 0x3C, y := 0x00 }) = some (0x0C, 0x00, 0x00, 0xFF, 0x24, 0xC003) := by decide

-- 95_test_vectors.md section 3, `ORA ($10),Y` from A=01, Y=00, ram[010]=00, ram[011]=03, ram[300]=02.
theorem test_ora_2 :
    regs (cpuStep { poke [(0x010, 0x00), (0x011, 0x03), (0x300, 0x02)] (extMachine [0x11, 0x10]) with a := 0x01, y := 0x00 }) = some (0x03, 0x00, 0x00, 0xFF, 0x24, 0xC002) := by decide

-- 95_test_vectors.md section 3, `CMP ($10),Y` from A=05, Y=01, ram[010]=FF, ram[011]=02, ram[300]=06.
theorem test_cmp_2 :
    regs (cpuStep { poke [(0x010, 0xFF), (0x011, 0x02), (0x300, 0x06)] (extMachine [0xD1, 0x10]) with a := 0x05, y := 0x01 }) = some (0x05, 0x00, 0x01, 0xFF, 0xA4, 0xC002) := by decide

-- 95_test_vectors.md section 4, `ASL A` from A=41, P=25.
theorem test_asl_1 :
    regs (cpuStep { machine [0x0A] with a := 0x41, p := 0x25 }) = some (0x82, 0x00, 0x00, 0xFF, 0xA4, 0xC001) := by decide

-- 95_test_vectors.md section 4, `ASL $10` from ram[010]=C0.
theorem test_asl_2 :
    regs (cpuStep (poke [(0x010, 0xC0)] (machine [0x06, 0x10]))) = some (0x00, 0x00, 0x00, 0xFF, 0xA5, 0xC002) ∧
      ramOf (cpuStep (poke [(0x010, 0xC0)] (machine [0x06, 0x10]))) [0x010] = [0x80] := by decide

-- 95_test_vectors.md section 4, `LSR A` from A=80, P=A5.
theorem test_lsr_1 :
    regs (cpuStep { machine [0x4A] with a := 0x80, p := 0xA5 }) = some (0x40, 0x00, 0x00, 0xFF, 0x24, 0xC001) := by decide

-- 95_test_vectors.md section 4, `LSR $0300,X` from X=01, ram[301]=03.
theorem test_lsr_2 :
    regs (cpuStep { poke [(0x301, 0x03)] (machine [0x5E, 0x00, 0x03]) with x := 0x01 }) = some (0x00, 0x01, 0x00, 0xFF, 0x25, 0xC003) ∧
      ramOf (cpuStep { poke [(0x301, 0x03)] (machine [0x5E, 0x00, 0x03]) with x := 0x01 }) [0x301] = [0x01] := by decide

-- 95_test_vectors.md section 4, `ROL A` from A=80, P=25.
theorem test_rol_1 :
    regs (cpuStep { machine [0x2A] with a := 0x80, p := 0x25 }) = some (0x01, 0x00, 0x00, 0xFF, 0x25, 0xC001) := by decide

-- 95_test_vectors.md section 4, `ROL $10,X` from X=01, ram[011]=FF.
theorem test_rol_2 :
    regs (cpuStep { poke [(0x011, 0xFF)] (machine [0x36, 0x10]) with x := 0x01 }) = some (0x00, 0x01, 0x00, 0xFF, 0xA5, 0xC002) ∧
      ramOf (cpuStep { poke [(0x011, 0xFF)] (machine [0x36, 0x10]) with x := 0x01 }) [0x011] = [0xFE] := by decide

-- 95_test_vectors.md section 4, `ROR A` from A=00, P=25.
theorem test_ror_1 :
    regs (cpuStep { machine [0x6A] with a := 0x00, p := 0x25 }) = some (0x80, 0x00, 0x00, 0xFF, 0xA4, 0xC001) := by decide

-- 95_test_vectors.md section 4, `ROR $10,X` from X=01, ram[011]=03.
theorem test_ror_2 :
    regs (cpuStep { poke [(0x011, 0x03)] (machine [0x76, 0x10]) with x := 0x01 }) = some (0x00, 0x01, 0x00, 0xFF, 0x25, 0xC002) ∧
      ramOf (cpuStep { poke [(0x011, 0x03)] (machine [0x76, 0x10]) with x := 0x01 }) [0x011] = [0x01] := by decide

-- 95_test_vectors.md section 5, `JMP $1234` from defaults.
theorem test_jmp_1 :
    regs (cpuStep (machine [0x4C, 0x34, 0x12])) = some (0x00, 0x00, 0x00, 0xFF, 0x24, 0x1234) := by decide

-- 95_test_vectors.md section 5, `JSR $1234` from defaults.
theorem test_jsr_1 :
    regs (cpuStep (machine [0x20, 0x34, 0x12])) = some (0x00, 0x00, 0x00, 0xFD, 0x24, 0x1234) ∧
      ramOf (cpuStep (machine [0x20, 0x34, 0x12])) [0x1FF, 0x1FE] = [0xC0, 0x02] := by decide

-- 95_test_vectors.md section 5, `JSR $C010` from SP=00.
theorem test_jsr_2 :
    regs (cpuStep { machine [0x20, 0x10, 0xC0] with sp := 0x00 }) = some (0x00, 0x00, 0x00, 0xFE, 0x24, 0xC010) ∧
      ramOf (cpuStep { machine [0x20, 0x10, 0xC0] with sp := 0x00 }) [0x100, 0x1FF] = [0xC0, 0x02] := by decide

-- 95_test_vectors.md section 5, `RTS` from SP=FD, ram[1FE]=FF, ram[1FF]=FF.
theorem test_rts_1 :
    regs (cpuStep { poke [(0x1FE, 0xFF), (0x1FF, 0xFF)] (machine [0x60]) with sp := 0xFD }) = some (0x00, 0x00, 0x00, 0xFF, 0x24, 0x0000) := by decide

-- 95_test_vectors.md section 5, `RTS` from SP=FF, ram[100]=10, ram[101]=20.
theorem test_rts_2 :
    regs (cpuStep { poke [(0x100, 0x10), (0x101, 0x20)] (machine [0x60]) with sp := 0xFF }) = some (0x00, 0x00, 0x00, 0x01, 0x24, 0x2011) := by decide

-- 95_test_vectors.md section 5, `BPL +5` from P=24.
theorem test_bpl_1 :
    regs (cpuStep { machine [0x10, 0x05] with p := 0x24 }) = some (0x00, 0x00, 0x00, 0xFF, 0x24, 0xC007) := by decide

-- 95_test_vectors.md section 5, `BPL +5` from P=A4.
theorem test_bpl_2 :
    regs (cpuStep { machine [0x10, 0x05] with p := 0xA4 }) = some (0x00, 0x00, 0x00, 0xFF, 0xA4, 0xC002) := by decide

-- 95_test_vectors.md section 5, `BMI -4` from P=A4.
theorem test_bmi_1 :
    regs (cpuStep { machine [0x30, 0xFC] with p := 0xA4 }) = some (0x00, 0x00, 0x00, 0xFF, 0xA4, 0xBFFE) := by decide

-- 95_test_vectors.md section 5, `BMI -4` from P=24.
theorem test_bmi_2 :
    regs (cpuStep { machine [0x30, 0xFC] with p := 0x24 }) = some (0x00, 0x00, 0x00, 0xFF, 0x24, 0xC002) := by decide

-- 95_test_vectors.md section 5, `BVC +2` from P=24.
theorem test_bvc_1 :
    regs (cpuStep { machine [0x50, 0x02] with p := 0x24 }) = some (0x00, 0x00, 0x00, 0xFF, 0x24, 0xC004) := by decide

-- 95_test_vectors.md section 5, `BVC +2` from P=64.
theorem test_bvc_2 :
    regs (cpuStep { machine [0x50, 0x02] with p := 0x64 }) = some (0x00, 0x00, 0x00, 0xFF, 0x64, 0xC002) := by decide

-- 95_test_vectors.md section 5, `BVS +2` from P=64.
theorem test_bvs_1 :
    regs (cpuStep { machine [0x70, 0x02] with p := 0x64 }) = some (0x00, 0x00, 0x00, 0xFF, 0x64, 0xC004) := by decide

-- 95_test_vectors.md section 5, `BVS +2` from P=24.
theorem test_bvs_2 :
    regs (cpuStep { machine [0x70, 0x02] with p := 0x24 }) = some (0x00, 0x00, 0x00, 0xFF, 0x24, 0xC002) := by decide

-- 95_test_vectors.md section 5, `BCC +16` from P=24.
theorem test_bcc_1 :
    regs (cpuStep { machine [0x90, 0x10] with p := 0x24 }) = some (0x00, 0x00, 0x00, 0xFF, 0x24, 0xC012) := by decide

-- 95_test_vectors.md section 5, `BCC +16` from P=25.
theorem test_bcc_2 :
    regs (cpuStep { machine [0x90, 0x10] with p := 0x25 }) = some (0x00, 0x00, 0x00, 0xFF, 0x25, 0xC002) := by decide

-- 95_test_vectors.md section 5, `BCS -128` from P=25.
theorem test_bcs_1 :
    regs (cpuStep { machine [0xB0, 0x80] with p := 0x25 }) = some (0x00, 0x00, 0x00, 0xFF, 0x25, 0xBF82) := by decide

-- 95_test_vectors.md section 5, `BCS -128` from P=24.
theorem test_bcs_2 :
    regs (cpuStep { machine [0xB0, 0x80] with p := 0x24 }) = some (0x00, 0x00, 0x00, 0xFF, 0x24, 0xC002) := by decide

-- 95_test_vectors.md section 5, `BNE +127` from P=24.
theorem test_bne_1 :
    regs (cpuStep { machine [0xD0, 0x7F] with p := 0x24 }) = some (0x00, 0x00, 0x00, 0xFF, 0x24, 0xC081) := by decide

-- 95_test_vectors.md section 5, `BNE +127` from P=26.
theorem test_bne_2 :
    regs (cpuStep { machine [0xD0, 0x7F] with p := 0x26 }) = some (0x00, 0x00, 0x00, 0xFF, 0x26, 0xC002) := by decide

-- 95_test_vectors.md section 5, `BEQ -2` from P=26.
theorem test_beq_1 :
    regs (cpuStep { machine [0xF0, 0xFE] with p := 0x26 }) = some (0x00, 0x00, 0x00, 0xFF, 0x26, 0xC000) := by decide

-- 95_test_vectors.md section 5, `BEQ -2` from P=24.
theorem test_beq_2 :
    regs (cpuStep { machine [0xF0, 0xFE] with p := 0x24 }) = some (0x00, 0x00, 0x00, 0xFF, 0x24, 0xC002) := by decide

-- 95_test_vectors.md section 5, `JMP ($02FF)` from ram[2FF]=00, ram[200]=C1, ram[300]=55.
theorem test_jmp_2 :
    regs (cpuStep (poke [(0x2FF, 0x00), (0x200, 0xC1), (0x300, 0x55)] (extMachine [0x6C, 0xFF, 0x02]))) = some (0x00, 0x00, 0x00, 0xFF, 0x24, 0xC100) := by decide

-- 95_test_vectors.md section 6, `PHA` from A=99, SP=00.
theorem test_pha_1 :
    regs (cpuStep { machine [0x48] with a := 0x99, sp := 0x00 }) = some (0x99, 0x00, 0x00, 0xFF, 0x24, 0xC001) ∧
      ramOf (cpuStep { machine [0x48] with a := 0x99, sp := 0x00 }) [0x100] = [0x99] := by decide

-- 95_test_vectors.md section 6, `PLA` from SP=FF, ram[100]=00.
theorem test_pla_1 :
    regs (cpuStep { poke [(0x100, 0x00)] (machine [0x68]) with sp := 0xFF }) = some (0x00, 0x00, 0x00, 0x00, 0x26, 0xC001) := by decide

-- 95_test_vectors.md section 6, `PHP` from P=24.
theorem test_php_1 :
    regs (cpuStep { machine [0x08] with p := 0x24 }) = some (0x00, 0x00, 0x00, 0xFE, 0x24, 0xC001) ∧
      ramOf (cpuStep { machine [0x08] with p := 0x24 }) [0x1FF] = [0x24] := by decide

-- 95_test_vectors.md section 6, `PHP` from P=EF.
theorem test_php_2 :
    regs (cpuStep { machine [0x08] with p := 0xEF }) = some (0x00, 0x00, 0x00, 0xFE, 0xEF, 0xC001) ∧
      ramOf (cpuStep { machine [0x08] with p := 0xEF }) [0x1FF] = [0xEF] := by decide

-- 95_test_vectors.md section 6, `PLP` from SP=FE, P=24, ram[1FF]=C3.
theorem test_plp_1 :
    regs (cpuStep { poke [(0x1FF, 0xC3)] (machine [0x28]) with sp := 0xFE, p := 0x24 }) = some (0x00, 0x00, 0x00, 0xFF, 0xE3, 0xC001) := by decide

-- 95_test_vectors.md section 6, `PLP` from SP=FE, P=EF, ram[1FF]=00.
theorem test_plp_2 :
    regs (cpuStep { poke [(0x1FF, 0x00)] (machine [0x28]) with sp := 0xFE, p := 0xEF }) = some (0x00, 0x00, 0x00, 0xFF, 0x20, 0xC001) := by decide

-- 95_test_vectors.md section 6, `CLC` from P=25.
theorem test_clc_1 :
    regs (cpuStep { machine [0x18] with p := 0x25 }) = some (0x00, 0x00, 0x00, 0xFF, 0x24, 0xC001) := by decide

-- 95_test_vectors.md section 6, `SEC` from P=24.
theorem test_sec_1 :
    regs (cpuStep { machine [0x38] with p := 0x24 }) = some (0x00, 0x00, 0x00, 0xFF, 0x25, 0xC001) := by decide

-- 95_test_vectors.md section 6, `CLI` from P=24.
theorem test_cli_1 :
    regs (cpuStep { machine [0x58] with p := 0x24 }) = some (0x00, 0x00, 0x00, 0xFF, 0x20, 0xC001) := by decide

-- 95_test_vectors.md section 6, `SEI` from P=20.
theorem test_sei_1 :
    regs (cpuStep { machine [0x78] with p := 0x20 }) = some (0x00, 0x00, 0x00, 0xFF, 0x24, 0xC001) := by decide

-- 95_test_vectors.md section 6, `CLD` from P=2C.
theorem test_cld_1 :
    regs (cpuStep { machine [0xD8] with p := 0x2C }) = some (0x00, 0x00, 0x00, 0xFF, 0x24, 0xC001) := by decide

-- 95_test_vectors.md section 6, `SED` from P=24.
theorem test_sed_1 :
    regs (cpuStep { machine [0xF8] with p := 0x24 }) = some (0x00, 0x00, 0x00, 0xFF, 0x2C, 0xC001) := by decide

-- 95_test_vectors.md section 6, `CLV` from P=EF.
theorem test_clv_1 :
    regs (cpuStep { machine [0xB8] with p := 0xEF }) = some (0x00, 0x00, 0x00, 0xFF, 0xAF, 0xC001) := by decide

-- 95_test_vectors.md section 6, `NOP` from A=12, X=34, Y=56, P=E7.
theorem test_nop_1 :
    regs (cpuStep { machine [0xEA] with a := 0x12, x := 0x34, y := 0x56, p := 0xE7 }) = some (0x12, 0x34, 0x56, 0xFF, 0xE7, 0xC001) := by decide

-- 95_test_vectors.md section 6, `BRK` from P=24.
theorem test_brk_1 :
    regs (cpuStep { brkMachine with p := 0x24 }) = some (0x00, 0x00, 0x00, 0xFC, 0x24, 0xC000) ∧
      ramOf (cpuStep { brkMachine with p := 0x24 }) [0x1FF, 0x1FE, 0x1FD] = [0xC0, 0x02, 0x34] := by decide

-- 95_test_vectors.md section 6, `BRK` from SP=01, P=E3.
theorem test_brk_2 :
    regs (cpuStep { brkMachine with sp := 0x01, p := 0xE3 }) = some (0x00, 0x00, 0x00, 0xFE, 0xE7, 0xC000) ∧
      ramOf (cpuStep { brkMachine with sp := 0x01, p := 0xE3 }) [0x101, 0x100, 0x1FF] = [0xC0, 0x02, 0xF3] := by decide

-- 95_test_vectors.md section 6, `RTI` from SP=FC, P=24, ram[1FD]=34, ram[1FE]=02, ram[1FF]=C0.
theorem test_rti_1 :
    regs (cpuStep { poke [(0x1FD, 0x34), (0x1FE, 0x02), (0x1FF, 0xC0)] (machine [0x40]) with sp := 0xFC, p := 0x24 }) = some (0x00, 0x00, 0x00, 0xFF, 0x24, 0xC002) := by decide

-- 95_test_vectors.md section 6, `RTI` from SP=FE, P=24, ram[1FF]=01, ram[100]=CD, ram[101]=AB.
theorem test_rti_2 :
    regs (cpuStep { poke [(0x1FF, 0x01), (0x100, 0xCD), (0x101, 0xAB)] (machine [0x40]) with sp := 0xFE, p := 0x24 }) = some (0x00, 0x00, 0x00, 0x01, 0x21, 0xABCD) := by decide

/-! ### The bus, the mappers, the PPU, the coordinator -/

/-- The byte of a read. -/
def byteOf : Res Byte → Option Byte
  | .ok v _ => some v
  | .fault _ _ => none

/-- The fault of a read. -/
def readFault : Res Byte → Option Fault
  | .ok _ _ => none
  | .fault f _ => some f

/-- A field of a next state. -/
def after {α : Type} (f : State → α) : Outcome → Option α
  | .next t => some (f t)
  | .fault _ => none
  | .refused _ => none

-- 95_test_vectors.md section 7.1: RAM mirrors.
theorem test_bus_ram_mirrors :
    byteOf (memRead 0x0FFF (poke [(0x7FF, 0x5A)] State.reset)) = some 0x5A ∧
    byteOf (memRead 0x1FFF (poke [(0x7FF, 0x5A)] State.reset)) = some 0x5A ∧
    after (fun t => t.ram.read 0x234) (memWrite 0x1234 0x5A State.reset) = some 0x5A := by decide

-- 95_test_vectors.md section 7.1: the bus faults at the edges of the map.
theorem test_bus_read_faults :
    readFault (memRead 0x3FFF State.reset) = none ∧ readFault (memRead 0x4000 State.reset) = some (.busFault 0x4000) ∧
    readFault (memRead 0x4017 State.reset) = some (.busFault 0x4017) ∧
    readFault (memRead 0x7FFF State.reset) = some (.busFault 0x7FFF) ∧
    readFault (memRead 0x8000 State.reset) = none := by decide

theorem test_bus_write_faults :
    faultOf (memWrite 0x3FFF 1 State.reset) = none ∧ faultOf (memWrite 0x4000 1 State.reset) = some (.busFault 0x4000) ∧
    faultOf (memWrite 0x4014 1 State.reset) = some (.busFault 0x4014) ∧
    after id (memWrite 0x4017 1 State.reset) = some State.reset ∧
    faultOf (memWrite 0x4018 1 State.reset) = some (.busFault 0x4018) ∧
    faultOf (memWrite 0xFFFF 1 State.reset) = some (.busFault 0xFFFF) := by decide

-- 95_test_vectors.md section 7.1, as instructions: the faulting access is the read of INC.
theorem test_bus_instructions :
    faultOf (cpuStep (machine [0xEE, 0x17, 0x40])) = some (.busFault 0x4017) ∧
    faultOf (cpuStep { machine [0xBD, 0xFF, 0x3F] with x := 0x01 }) = some (.busFault 0x4000) ∧
    faultOf (step { machine [] with pc := 0x4000 }) = some (.busFault 0x4000) := by decide

-- 95_test_vectors.md section 7.2.
theorem test_translate :
    Machine.translate .mapper0 0x8000 0x8000 = 0x0000 ∧ Machine.translate .mapper0 0x8000 0xBFFF = 0x3FFF ∧
    Machine.translate .mapper0 0x8000 0xC000 = 0x4000 ∧ Machine.translate .mapper0 0x10000 0xC000 = 0xC000 ∧
    Machine.translate .mapper0 0x10000 0xFFFC = 0xFFFC ∧ Machine.translate .mapper1 0x8000 0xC000 = 0x0000 ∧
    Machine.translate .mapper1 0x40000 0xBFFF = 0x3FFF ∧ Machine.translate .mapper1 0x40000 0xFFFA = 0x3FFA := by decide

-- 95_test_vectors.md section 7.3: the mapper numbers.
theorem test_mapperId :
    let h := Cartridge.blank.header;
    mapperId { h with flags6 := 0x10 } = 1 ∧ mapperId { h with flags6 := 0x21 } = 2 ∧
    mapperId { h with flags7 := 0x10 } = 16 ∧ mapperId { h with flags6 := 0x1F, flags7 := 0x0F } = 1 ∧
    mapperOf 0 = some .mapper0 ∧ mapperOf 1 = some .mapper1 ∧ mapperOf 2 = none := by decide

/-- The PPU counters as section 8 writes them. -/
def dotState (y x cycle : Nat) (ctrl : Byte) : State :=
  { State.reset with ppu := { Ppu.powerOn with y := y, x := x, cycle := cycle, ctrl := ctrl } }

-- 95_test_vectors.md section 8.1: the ends of lines and of the frame.
theorem test_tick_lines :
    (let q := (tick (dotState 0 339 339 0)).ppu; (q.y, q.x, q.cycle, q.status) = (1, 0, 340, 0x00)) ∧
    (let q := (tick (dotState 240 339 81939 0)).ppu; (q.y, q.x, q.cycle, q.status) = (241, 0, 81940, 0x80)) ∧
    (let q := (tick { dotState 260 339 88739 0 with
        ppu := { (dotState 260 339 88739 0).ppu with status := 0x80 } }).ppu;
      (q.y, q.x, q.cycle, q.status) = (0, 0, 88740, 0x00)) := by decide

-- 95_test_vectors.md section 8.2, every row.
theorem test_nmi_condition :
    (tick (dotState 241 0 81940 0x80)).nmiPending = true ∧ (tick (dotState 241 0 81940 0x00)).nmiPending = false ∧
    (tick (dotState 241 0 81940 0x7F)).nmiPending = false ∧ (tick (dotState 241 0 81940 0xFF)).nmiPending = true ∧
    (tick (dotState 241 1 81941 0x80)).nmiPending = false ∧ (tick (dotState 240 339 81939 0x80)).nmiPending = false ∧
    (tick (dotState 241 0 29657 0x80)).nmiPending = false ∧ (tick (dotState 241 0 29658 0x80)).nmiPending = true ∧
    (tick (dotState 241 0 100 0x80)).nmiPending = false ∧ (tick (dotState 242 0 90000 0x80)).nmiPending = false := by
  decide

/-- Writes to ports `n` of the bytes `v`, one after the other. -/
def ports (l : List (Port × Byte)) (q : Ppu) : Ppu := l.foldl (fun r c => portWrite c.1 c.2 r) q

-- 95_test_vectors.md section 8.3: the address pair, the data port with both increments, the whole high byte.
theorem test_ports_vram :
    (let q := ports [(.control, 0x04), (.address, 0x21), (.address, 0x08), (.data, 0x11), (.data, 0x22)] Ppu.powerOn;
      (q.v, q.w, q.vram.read 0x2108, q.vram.read 0x2128) = (0x2148, false, 0x11, 0x22)) ∧
    (let q := ports [(.address, 0xFF), (.address, 0xFF), (.data, 0x5A), (.data, 0x5B)] Ppu.powerOn;
      (q.v, q.vram.read 0x3FFF, q.vram.read 0) = (0x0001, 0x5A, 0x5B)) ∧
    (let q := ports [(.address, 0x80), (.address, 0x00), (.data, 0x99)] Ppu.powerOn;
      (q.v, q.vram.read 0) = (0x8001, 0x99)) := by decide

-- 95_test_vectors.md section 8.3: the toggle that the scroll and address ports share.
theorem test_ports_toggle :
    (let q := ports [(.scroll, 0x12), (.scroll, 0x34)] Ppu.powerOn;
      (q.scrollX, q.scrollY, q.w, q.v) = (0x12, 0x34, false, 0x0000)) ∧
    (let q := ports [(.scroll, 0x12), (.address, 0x34)] Ppu.powerOn;
      (q.scrollX, q.scrollY, q.v, q.w) = (0x12, 0x00, 0x0034, false)) ∧
    (let q := ports [(.address, 0x12), (.scroll, 0x34), (.address, 0x56)] Ppu.powerOn;
      (q.scrollX, q.scrollY, q.v, q.w) = (0x00, 0x34, 0x5600, true)) := by decide

-- 95_test_vectors.md section 8.3: the OAM ports, the mask, and the ignored write of the status port.
theorem test_ports_oam :
    (let q := ports [(.oamAddress, 0xFE), (.oamData, 0x01), (.oamData, 0x02), (.oamData, 0x03)] Ppu.powerOn;
      (q.oamAddr, q.oam.read 0xFE, q.oam.read 0xFF, q.oam.read 0) = (0x01, 0x01, 0x02, 0x03)) ∧
    (ports [(.mask, 0x1E)] Ppu.powerOn).mask = 0x1E ∧
    ports [(.status, 0x00)] { Ppu.powerOn with status := 0x80 } = { Ppu.powerOn with status := 0x80 } := by decide

-- 95_test_vectors.md section 8.3: reads, with both values of STATUS_READ_CLEARS_W.
theorem test_port_reads :
    (let s := { State.reset with ppu := { Ppu.powerOn with w := true, status := 0x80 } };
      (portRead .status s).1 = 0x80 ∧ (portRead .status s).2.ppu.w = true ∧
        (portRead .status { s with statusReadClearsW := true }).2.ppu.w = false) ∧
    (let s := { State.reset with ppu := { Ppu.powerOn with v := 0x3FFF, vram := [(0, 0x0C), (0x3FFF, 0x77)] } };
      (portRead .data s).1 = 0x77 ∧ (portRead .data (portRead .data s).2).1 = 0x0C ∧
        (portRead .data (portRead .data s).2).2.ppu.v = 0x4001) ∧
    (let s := { State.reset with ppu := { Ppu.powerOn with oamAddr := 0x10, oam := [(0x10, 0x6D)] } };
      (portRead .oamData s).1 = 0x6D ∧ (portRead .oamData s).2 = s) := by decide

-- 95_test_vectors.md section 8.3, last row: a write-only port gives a draw and changes nothing else.
theorem test_port_draw (s : State) : (portRead .scroll s).2 = { s with draws := s.draws + 1 } := rfl

-- 95_test_vectors.md section 8.4, in part (the last transfers of the page): byte 254 is moved and 255 is not.
theorem test_oamDma_end :
    (let s := { poke [(0x2FE, 0xFE), (0x2FF, 0xAB)] State.reset with
        ppu := { Ppu.powerOn with oamAddr := 0x10, oam := [(0x0F, 0xEE)] } };
      after (fun t => (t.ppu.oam.read 0x0E, t.ppu.oam.read 0x0F, t.ppu.oamAddr))
        ((oamDmaFrom 2 253 0x02 s).andThen fun _ t => .next t) = some (0xFE, 0xEE, 0x10)) ∧
    Config.oamDmaLen = 255 ∧ faultOf (hostAct (.oamDma 0x40) State.reset) = some (.busFault 0x4000) := by decide

-- 95_test_vectors.md section 9.1.
theorem test_iterate :
    after (fun t => (t.pc, t.ppu.cycle, t.ppu.x, t.ppu.y, t.nmiPending)) (step (machine [0xEA]))
      = some (0xC001, 3, 3, 0, false) ∧
    faultOf (step (machine [0x02])) = some (.unimplementedInstruction 0x02) ∧
    (haltedState (machine [0x02])).map (fun t => (t.halted, t.pc, t.ppu.cycle))
      = some (some (.unimplementedInstruction 0x02), 0xC000, 0) := by decide

/-- The machine of section 9.2: the bytes given lie at the NMI vector. -/
def vectorMachine (lo hi : Byte) : State :=
  { machine [] with cart := { Cartridge.blank with prg := Memory.ofBytesFrom 0x7FFA [lo, hi] } }

/-- PC, SP, P and the given stack bytes. -/
def entryOf (t : State) (is : List Nat) : Addr × Byte × Byte × List Byte := (t.pc, t.sp, t.p, is.map t.ram.read)

-- 95_test_vectors.md section 9.2, rows 2 to 4.
theorem test_nmiEntry :
    entryOf (nmiEntry { vectorMachine 0x80 0xC0 with pc := 0xC123, sp := 0xFF, p := 0xE3 }) [0x1FF, 0x1FE, 0x1FD]
      = (0xC080, 0xFC, 0xE7, [0xC1, 0x23, 0xE3]) ∧
    entryOf (nmiEntry { vectorMachine 0x00 0x80 with pc := 0x0000, sp := 0x01, p := 0x30 }) [0x101, 0x100, 0x1FF]
      = (0x8000, 0xFE, 0x34, [0x00, 0x00, 0x20]) ∧
    entryOf (nmiEntry { vectorMachine 0x80 0xC0 with pc := 0xFFFF, sp := 0x00, p := 0x20 }) [0x100, 0x1FF, 0x1FE]
      = (0xC080, 0xFD, 0x24, [0xFF, 0xFF, 0x20]) := by decide

/-- The state of section 9.4 two iterations on: the next step has the vblank dot and the sampling dot among
its three. -/
def beforeNmi : State :=
  let s := { vectorMachine 0x80 0xC0 with pc := 0x0200 }
  { poke [(0x200, 0xEA)] s with ppu := { Ppu.powerOn with y := 240, x := 339, cycle := 81939, ctrl := 0x80 } }

-- 95_test_vectors.md section 9.4 (iteration 27314), with the NOP in RAM.
theorem test_nmi_delivered :
    after (fun t => (t.pc, t.sp, t.p, t.ppu.cycle, t.ppu.y, t.ppu.x)) (step beforeNmi)
      = some (0xC080, 0xFC, 0x24, 81942, 241, 2) := by decide

/-- `PC` at the last address of the port window, the data port, where VRAM holds the opcode of LDA immediate. -/
def lastPort : State :=
  { machine [] with pc := 0x3FFF, ppu := { Ppu.powerOn with vram := [(0, 0xA9)] } }

-- R322, R324: the operand fetch at 0x4000 faults after the opcode read has moved the VRAM latch; no tick.
theorem test_fault_keeps_reads :
    faultOf (step lastPort) = some (.busFault 0x4000) ∧
    (haltedState lastPort).map (fun t => (t.halted, t.ppu.v, t.ppu.cycle)) = some (some (.busFault 0x4000), 1, 0) := by
  decide

-- R324, R6: a faulting DMA halts (log entry 11), and a halted machine takes no host action (log entry 12).
theorem test_host_halt :
    (hostHaltedState (.oamDma 0x7F) State.reset).map (fun t => (t.halted, t.ppu.oam)) = some (some (.busFault 0x7F00), []) ∧
    faultOf (hostAct .resetCpu { State.reset with halted := some (.busFault 0x5000) }) = some (.busFault 0x5000) ∧
    (hostHaltedState (.oamDma 0x40) { State.reset with halted := some (.busFault 0x5000) }).map State.halted
      = some (some (.busFault 0x5000)) := by decide

-- R274: from a page of ports the reads of ports 2 and 7 have their side effects.
theorem test_oamDma_ports :
    (let s := { State.reset with ppu := { Ppu.powerOn with status := 0x80, vram := [(0, 0x11)] } };
      after (fun t => (t.ppu.oam.read 2, t.ppu.v)) ((oamDmaFrom 1 2 0x20 s).andThen fun _ t => .next t) = some (0x80, 0) ∧
      after (fun t => (t.ppu.oam.read 7, t.ppu.v)) ((oamDmaFrom 1 7 0x20 s).andThen fun _ t => .next t)
        = some (0x11, 1)) := by decide

-- R361, R38: `reset()` on a machine whose reset vector holds `00 C0`.
theorem test_resetCpu :
    let t := resetCpu { machine [] with
      p := 0x00, cart := { Cartridge.blank with prg := Memory.ofBytesFrom 0x7FFC [0x00, 0xC0] } };
    (t.pc, t.p, t.sp) = (0xC000, 0x24, 0xFF) := by decide

/-- An instruction placed in the machine at reset is the one the next step runs. -/
theorem test_withFetchWord :
    after (fun t => (t.a, t.pc)) (step (State.reset.withFetchWord 16 0x9CA9)) = some (0x9C, 0x0002) ∧
    after (fun t => t.pc) (step (State.reset.withFetchWord 24 0x123420)) = some 0x1234 ∧
    after (fun t => t.pc) (step (State.reset.withFetchWord 24 0x03006C)) = some 0x0000 := by decide

/-- The memory operations keep equal memories equal: a byte written back to 0 is not listed. -/
theorem test_memory_canonical :
    Memory.write [(1, 0x11), (3, 0x33)] 2 0x22 = [(1, 0x11), (2, 0x22), (3, 0x33)] ∧
    Memory.write [(1, 0x11), (3, 0x33)] 3 0 = [(1, 0x11)] ∧ Memory.read [(1, 0x11)] 2 = 0 := by decide

/-! ### Witnesses: each hypothesis of each statement is met -/

theorem next_of {o : Outcome} (h : (after id o).isSome = true) : ∃ t, o = .next t := by
  cases o with
  | next t => exact ⟨t, rfl⟩
  | fault f => exact absurd h Bool.false_ne_true
  | refused r => exact absurd h Bool.false_ne_true

theorem fault_of {o : Outcome} {f : Fault} (h : faultOf o = some f) : o = .fault f := by
  cases o with
  | next t => exact absurd h (by simp [faultOf])
  | fault g => simpa [faultOf] using h
  | refused r => exact absurd h (by simp [faultOf])

theorem ok_of {r : Res Byte} {v : Byte} (h : byteOf r = some v) : ∃ u, r = .ok v u := by
  cases r with
  | ok w u => exact ⟨u, by simpa [byteOf] using h⟩
  | fault f u => exact absurd h (by simp [byteOf])

theorem witness_StepKeepsInvariant :
    (machine [0xEA]).Inv ∧ beforeNmi.Inv ∧ (∃ t, step (machine [0xEA]) = .next t) ∧ ∃ t, step beforeNmi = .next t :=
  ⟨by decide, by decide, next_of (by decide), next_of (by decide)⟩

theorem oamDmaFrom_next (page : Byte) (h : page.toNat < 0x1F) (n : Nat) (i : Nat) (hi : i + n ≤ 256) (s : State) :
    ∃ t, oamDmaFrom n i page s = .ok () t := by
  induction n generalizing i s with
  | zero => exact ⟨s, rfl⟩
  | succ n ih =>
    have ha : (pair page 0 + BitVec.ofNat 16 i).toNat < 0x2000 := by
      have hp : (pair page 0).toNat = page.toNat * 256 := by rw [toNat_pair]; exact Nat.add_zero _
      rw [BitVec.toNat_add, BitVec.toNat_ofNat, hp]
      omega
    rw [oamDmaFrom_succ, memRead_ram ha, Res.bind_ok]
    exact ih (i + 1) (by omega) _

theorem witness_HostActionsKeepInvariant :
    (machine []).Inv ∧ (∃ t, hostAct .requestStop (machine []) = .next t) ∧
    (∃ t, hostAct .resetCpu (machine []) = .next t) ∧ ∃ t, hostAct (.oamDma 0x02) (machine []) = .next t := by
  refine ⟨by decide, ⟨_, rfl⟩, ⟨_, rfl⟩, ?_⟩
  obtain ⟨t, ht⟩ := oamDmaFrom_next 0x02 (by decide) Config.oamDmaLen 0 (by norm_num) (machine [])
  have hh : (machine []).halted = none := rfl
  exact ⟨t, by simp only [hostAct, oamDma, hh, ht, Res.andThen_ok]⟩

theorem witness_LaunchMeetsInvariant : launch (blankLaunch Config.prgBank) = .next State.reset :=
  launch_blank _ rfl

/-- A cartridge image: the header with the counts and flag bytes given, then `n` zeros. -/
def image (prgCount chrCount flags6 flags7 : Byte) (n : Nat) : List Byte :=
  [0x4E, 0x45, 0x53, 0x1A, prgCount, chrCount, flags6, flags7, 0, 0, 0, 0, 0, 0, 0, 0] ++ List.replicate n 0

theorem image_length (a b c d : Byte) (n : Nat) : (image a b c d n).length = 16 + n := by
  rw [image, List.length_append, List.length_replicate]
  rfl

theorem imageOk_of_length (f6 f7 : Byte) (n : Nat) (hn : n = 16384) : ImageOk (image 1 0 f6 f7 n) := by
  have h4 : (image 1 0 f6 f7 n).getD 4 0 = 1 := rfl
  have h5 : (image 1 0 f6 f7 n).getD 5 0 = 0 := rfl
  refine ⟨?_, rfl, ?_⟩
  · rw [h4, h5, image_length, hn]; decide
  · rw [h4]; decide

theorem imageOk_of_bank (f6 f7 : Byte) : ImageOk (image 1 0 f6 f7 Config.prgBank) :=
  imageOk_of_length f6 f7 _ rfl

/-- The launch parameters around an image. -/
def launchOf (raw : List Byte) : LaunchParams := { blankLaunch 0 with image := raw }

theorem witness_LaunchGivesInitialState :
    (ImageOk (launchOf (image 1 0 0x00 0x00 Config.prgBank)).image ∧
      imageMapper (launchOf (image 1 0 0x00 0x00 Config.prgBank)).image = 0) ∧
    ImageOk (launchOf (image 1 0 0x1F 0x0F Config.prgBank)).image ∧
      imageMapper (launchOf (image 1 0 0x1F 0x0F Config.prgBank)).image = 1 :=
  ⟨⟨imageOk_of_bank _ _, rfl⟩, imageOk_of_bank _ _, rfl⟩

-- The images of 95_test_vectors.md section 7.3 with 15 bytes and with one CHR byte missing.
theorem witness_ShortImageIsFormatError :
    (List.replicate 15 (0 : Byte)).length < 16 ∧
    (image 2 1 0 0 40959).length <
      16 + ((image 2 1 0 0 40959).getD 4 0).toNat * 16384 + ((image 2 1 0 0 40959).getD 5 0).toNat * 8192 :=
  ⟨by decide, by rw [image_length]; exact Nat.lt_of_lt_of_eq (by decide) (rfl : 16 + 2 * 16384 + 1 * 8192 = _)⟩

theorem witness_LaunchRefusals :
    ¬ImageOk (launchOf (List.replicate 15 0)).image ∧
    ImageOk (launchOf (image 1 0 0x21 0x00 Config.prgBank)).image ∧
    imageMapper (launchOf (image 1 0 0x21 0x00 Config.prgBank)).image ≠ 0 ∧
    imageMapper (launchOf (image 1 0 0x21 0x00 Config.prgBank)).image ≠ 1 :=
  ⟨fun h => absurd h.1 (by decide), imageOk_of_bank _ _,
    fun h => absurd (h : (2 : Byte) = 0) (by decide), fun h => absurd (h : (2 : Byte) = 1) (by decide)⟩

theorem witness_DecodeUndoesEncode :
    WellFormed true (.ldaIzy 0xFF) ∧ WellFormed true (.jmpInd 0xFFFF) ∧ WellFormed false (.staAbsx 0x0000) ∧
      WellFormed false .rti := by decide

theorem witness_EncodeUndoesDecode :
    decode false [0xA9, 0xFF, 0x00] = .ok (.ldaImm 0xFF, [0x00]) ∧
    decode true [0x6C, 0xFF, 0xFF] = .ok (.jmpInd 0xFFFF, []) := by decide

theorem witness_UnassignedOpcodeFaults :
    (0x02 : Byte) ∈ unassigned ∧ (0xFF : Byte) ∈ unassigned ∧
    Running (machine [0x02]) ∧ (∃ u, memRead (machine [0x02]).pc (machine [0x02]) = .ok 0x02 u) ∧
    Running (machine [0xFF]) ∧ ∃ u, memRead (machine [0xFF]).pc (machine [0xFF]) = .ok 0xFF u :=
  ⟨by decide, by decide, ⟨rfl, rfl⟩, ok_of (by decide), ⟨rfl, rfl⟩, ok_of (by decide)⟩

theorem witness_StepRunsDecodedInstruction :
    Running (machine [0xAD, 0x10, 0x00]) ∧
    (∃ u, readBytes ([0xAD, 0x10, 0x00] : List Byte).length (machine [0xAD, 0x10, 0x00]).pc (machine [0xAD, 0x10, 0x00])
      = .ok [0xAD, 0x10, 0x00] u) ∧
    decode (machine [0xAD, 0x10, 0x00]).extModes [0xAD, 0x10, 0x00] = .ok (.ldaAbs 0x0010, []) :=
  ⟨⟨rfl, rfl⟩, ⟨_, rfl⟩, by decide⟩

theorem witness_FetchFaults :
    (Running { machine [] with pc := 0x4000 } ∧ ¬ReadMapped 0x4000) ∧
    (Running { machine [] with pc := 0x7FFF } ∧ ¬ReadMapped 0x7FFF) ∧
    (Running (machine [0xB1]) ∧ (∃ u, memRead (machine [0xB1]).pc (machine [0xB1]) = .ok 0xB1 u) ∧
      (0xB1 : Byte) ∈ extensionOnly ∧ (machine [0xB1]).extModes = false) ∧
    Running lastPort ∧ (∃ u, memRead lastPort.pc lastPort = .ok 0xA9 u) ∧
      (∃ form, lookup lastPort.extModes 0xA9 = some form ∧ 2 ≤ form.length) ∧ ¬ReadMapped (lastPort.pc + 1) ∧
    Running { machine [] with pc := 0x3FFE } :=
  ⟨⟨⟨rfl, rfl⟩, by unfold ReadMapped; decide⟩, ⟨⟨rfl, rfl⟩, by unfold ReadMapped; decide⟩,
    ⟨⟨rfl, rfl⟩, ok_of (by decide), by decide, rfl⟩, ⟨rfl, rfl⟩, ok_of (by decide),
    ⟨_, rfl, Nat.le_refl 2⟩, by unfold ReadMapped; decide, rfl, rfl⟩

theorem witness_NmiDeliveredAfterThirdTick :
    (Running (machine [0xEA]) ∧
      ∃ u v, fetch (machine [0xEA]) = .ok .nop u ∧ exec .nop u = .next v ∧ v.nmiPending = false) ∧
    Running beforeNmi ∧
      ∃ u v, fetch beforeNmi = .ok .nop u ∧ exec .nop u = .next v ∧ v.nmiPending = false ∧
        nmiCondition (advanceDot (advanceDot v.ppu)) = true :=
  ⟨⟨⟨rfl, rfl⟩, _, _, rfl, rfl, rfl⟩, ⟨rfl, rfl⟩, _, _, rfl, rfl, rfl, by decide⟩

theorem witness_StepAdvancesPpuByThree : ∃ t, step (machine [0xEA]) = .next t := next_of (by decide)

theorem witness_IterationOrder :
    ({ machine [] with stopRequested := true }.halted = none ∧
      { machine [] with stopRequested := true }.stopRequested = true) ∧
    ((machine [0x02]).halted = none ∧ (machine [0x02]).stopRequested = false ∧
      cpuStep (machine [0x02]) = .fault (.unimplementedInstruction 0x02)) ∧
    (machine [0xEA]).halted = none ∧ (machine [0xEA]).stopRequested = false ∧
      ∃ v, cpuStep (machine [0xEA]) = .next v :=
  ⟨⟨rfl, rfl⟩, ⟨rfl, rfl, fault_of (by decide)⟩, rfl, rfl, next_of (by decide)⟩

/-- A machine that has halted. -/
def haltedMachine : State := { machine [] with halted := some (.busFault 0x5000) }

theorem witness_HaltIsFinal :
    (step (machine [0xAD, 0x00, 0x50]) = .fault (.busFault 0x5000) ∧
      step (machine [0x02]) = .fault (.unimplementedInstruction 0x02)) ∧
    (Running (machine [0xAD, 0x00, 0x50]) ∧
      ∃ u, fetch (machine [0xAD, 0x00, 0x50]) = .ok (.ldaAbs 0x5000) u ∧
        exec (.ldaAbs 0x5000) u = .fault (.busFault 0x5000)) ∧
    hostAct (.oamDma 0x40) State.reset = .fault (.busFault 0x4000) ∧
    haltedMachine.halted = some (.busFault 0x5000) :=
  ⟨⟨fault_of (by decide), fault_of (by decide)⟩, ⟨⟨rfl, rfl⟩, _, rfl, fault_of (by decide)⟩, fault_of (by decide), rfl⟩

theorem witness_BusFaultsExactly :
    memRead 0x4000 State.reset = .fault (.busFault 0x4000) State.reset ∧
    memRead 0x4017 State.reset = .fault (.busFault 0x4017) State.reset ∧
    memRead 0x7FFF State.reset = .fault (.busFault 0x7FFF) State.reset ∧
    memWrite 0x4016 0 State.reset = .fault (.busFault 0x4016) ∧
    memWrite 0x8000 0 State.reset = .fault (.busFault 0x8000) := ⟨rfl, rfl, rfl, rfl, rfl⟩

theorem witness_RamMirrors :
    (0x0000#16).toNat < 0x2000 ∧ (0x1FFF#16).toNat < 0x2000 ∧ (0x1000#16).toNat % 0x800 = (0x0000#16).toNat % 0x800 ∧
      (0x1FFF#16).toNat % 0x800 ≠ (0x0000#16).toNat % 0x800 := by decide

theorem witness_PortMirrors :
    (0x2000 ≤ (0x2000#16).toNat ∧ (0x2000#16).toNat < 0x4000) ∧ 0x2000 ≤ (0x3FFF#16).toNat ∧
      (0x3FFF#16).toNat < 0x4000 := by decide

/-- A mapper-1 machine. -/
def mapper1Machine : State := { machine [] with cart := { Cartridge.blank with mapper := .mapper1 } }

theorem witness_MapperTranslation :
    (machine []).cart.mapper = .mapper0 ∧ mapper1Machine.cart.mapper = .mapper1 ∧
    (0x8000 ≤ (0x8000#16).toNat ∧ (0xBFFF#16).toNat ≤ 0xBFFF) ∧ 0xC000 ≤ (0xC000#16).toNat ∧
    0xC000 ≤ (0xFFFF#16).toNat := by decide

theorem witness_OperandReadFrame :
    (∃ v u, loadOperand (.mem (.abs 0x2007)) State.reset = .ok v u) ∧
    (∃ v u, loadOperand (.mem (.abs 0x1FFF)) State.reset = .ok v u) ∧
    ¬(0x2000 ≤ (effAddr (.abs 0x1FFF) State.reset).toNat ∧ (effAddr (.abs 0x1FFF) State.reset).toNat < 0x4000) :=
  ⟨⟨_, _, rfl⟩, ⟨_, _, rfl⟩, by decide⟩

/-! The statements over the rows of a mnemonic: a row whose operand lies at the last address that can be
read, and one whose operand lies at the first address that cannot. -/

/-- The two rows, for a form that reads an operand. -/
def ReadRows (form : Instr → Option (Byte × Bool × Operand)) : Prop :=
  (∃ i opc, form i = some (opc, false, .mem (.abs 0x3FFF)) ∧ OperandReadable (.mem (.abs 0x3FFF)) State.reset) ∧
  (∃ i opc, form i = some (opc, false, .mem (.abs 0x4000)) ∧ ¬ReadMapped (effAddr (.abs 0x4000) State.reset)) ∧
  ∃ i opc, form i = some (opc, false, .imm 0x00) ∧ OperandReadable (.imm 0x00) State.reset

theorem readRows {form : Instr → Option (Byte × Bool × Operand)} {i j k : Instr} {o1 o2 o3 : Byte}
    (h1 : form i = some (o1, false, .mem (.abs 0x3FFF))) (h2 : form j = some (o2, false, .mem (.abs 0x4000)))
    (h3 : form k = some (o3, false, .imm 0x00)) : ReadRows form :=
  ⟨⟨i, o1, h1, .inl (by decide)⟩, ⟨j, o2, h2, by unfold ReadMapped; decide⟩, k, o3, h3, trivial⟩

theorem witness_LoadsLoad : ReadRows ldaForm ∧ ReadRows ldxForm ∧ ReadRows ldyForm :=
  ⟨readRows (i := .ldaAbs 0x3FFF) (j := .ldaAbs 0x4000) (k := .ldaImm 0) rfl rfl rfl,
    readRows (i := .ldxAbs 0x3FFF) (j := .ldxAbs 0x4000) (k := .ldxImm 0) rfl rfl rfl,
    readRows (i := .ldyAbs 0x3FFF) (j := .ldyAbs 0x4000) (k := .ldyImm 0) rfl rfl rfl⟩

theorem witness_AdcSbcCompute : ReadRows adcForm ∧ ReadRows sbcForm :=
  ⟨readRows (i := .adcAbs 0x3FFF) (j := .adcAbs 0x4000) (k := .adcImm 0) rfl rfl rfl,
    readRows (i := .sbcAbs 0x3FFF) (j := .sbcAbs 0x4000) (k := .sbcImm 0) rfl rfl rfl⟩

theorem witness_LogicComputes : ReadRows andForm ∧ ReadRows oraForm ∧ ReadRows eorForm :=
  ⟨readRows (i := .andAbs 0x3FFF) (j := .andAbs 0x4000) (k := .andImm 0) rfl rfl rfl,
    readRows (i := .oraAbs 0x3FFF) (j := .oraAbs 0x4000) (k := .oraImm 0) rfl rfl rfl,
    readRows (i := .eorAbs 0x3FFF) (j := .eorAbs 0x4000) (k := .eorImm 0) rfl rfl rfl⟩

theorem witness_ComparesCompare : ReadRows cmpForm ∧ ReadRows cpxForm ∧ ReadRows cpyForm :=
  ⟨readRows (i := .cmpAbs 0x3FFF) (j := .cmpAbs 0x4000) (k := .cmpImm 0) rfl rfl rfl,
    readRows (i := .cpxAbs 0x3FFF) (j := .cpxAbs 0x4000) (k := .cpxImm 0) rfl rfl rfl,
    readRows (i := .cpyAbs 0x3FFF) (j := .cpyAbs 0x4000) (k := .cpyImm 0) rfl rfl rfl⟩

theorem witness_BitTests :
    (bitForm (.bitAbs 0x8000) = some (0x2C, false, .abs 0x8000) ∧ ReadMapped (effAddr (.abs 0x8000) State.reset)) ∧
    bitForm (.bitAbs 0x7FFF) = some (0x2C, false, .abs 0x7FFF) ∧ ¬ReadMapped (effAddr (.abs 0x7FFF) State.reset) :=
  ⟨⟨rfl, .inr (by decide)⟩, rfl, by unfold ReadMapped; decide⟩

/-- Rows that store at the last address below 0x4000, at 0x4017, and at two addresses that cannot be written. -/
theorem witness_StoresStore :
    (staForm (.staAbs 0x3FFF) = some (0x8D, false, .abs 0x3FFF) ∧ WriteMapped (effAddr (.abs 0x3FFF) State.reset)) ∧
    (stxForm (.stxAbs 0x4017) = some (0x8E, false, .abs 0x4017) ∧ WriteMapped (effAddr (.abs 0x4017) State.reset)) ∧
    (styForm (.styZp 0xFF) = some (0x84, false, .zp 0xFF) ∧ WriteMapped (effAddr (.zp 0xFF) State.reset)) ∧
    (staForm (.staAbs 0x4000) = some (0x8D, false, .abs 0x4000) ∧ ¬WriteMapped (effAddr (.abs 0x4000) State.reset)) ∧
    (stxForm (.stxAbs 0x4018) = some (0x8E, false, .abs 0x4018) ∧ ¬WriteMapped (effAddr (.abs 0x4018) State.reset)) ∧
    styForm (.styAbs 0x8000) = some (0x8C, false, .abs 0x8000) ∧ ¬WriteMapped (effAddr (.abs 0x8000) State.reset) :=
  ⟨⟨rfl, .inl (by decide)⟩, ⟨rfl, .inr rfl⟩, ⟨rfl, .inl (by decide)⟩,
    ⟨rfl, by unfold WriteMapped; decide⟩, ⟨rfl, by unfold WriteMapped; decide⟩, rfl, by unfold WriteMapped; decide⟩

/-- The two addresses where a read-modify-write starts to fault. -/
theorem modifyEdges :
    (effAddr (.abs 0x3FFF) State.reset).toNat < 0x4000 ∧ 0x4000 ≤ (effAddr (.abs 0x4000) State.reset).toNat := by
  decide

theorem witness_IncDecMemory :
    incForm (.incAbs 0x3FFF) = some (0xEE, false, .abs 0x3FFF) ∧
    incForm (.incAbs 0x4000) = some (0xEE, false, .abs 0x4000) ∧
    decForm (.decAbs 0x3FFF) = some (0xCE, false, .abs 0x3FFF) ∧
    decForm (.decAbs 0x4000) = some (0xCE, false, .abs 0x4000) ∧
    (effAddr (.abs 0x3FFF) State.reset).toNat < 0x4000 ∧ 0x4000 ≤ (effAddr (.abs 0x4000) State.reset).toNat :=
  ⟨rfl, rfl, rfl, rfl, modifyEdges⟩

theorem witness_ShiftsShift :
    (aslForm .aslAcc = some (0x0A, false, .acc) ∧ lsrForm .lsrAcc = some (0x4A, false, .acc) ∧
      rolForm .rolAcc = some (0x2A, false, .acc) ∧ rorForm .rorAcc = some (0x6A, false, .acc)) ∧
    (aslForm (.aslAbs 0x3FFF) = some (0x0E, false, .mem (.abs 0x3FFF)) ∧
      lsrForm (.lsrAbs 0x4000) = some (0x4E, false, .mem (.abs 0x4000)) ∧
      rolForm (.rolAbs 0x3FFF) = some (0x2E, false, .mem (.abs 0x3FFF)) ∧
      rorForm (.rorAbs 0x4000) = some (0x6E, false, .mem (.abs 0x4000))) ∧
    (effAddr (.abs 0x3FFF) State.reset).toNat < 0x4000 ∧ 0x4000 ≤ (effAddr (.abs 0x4000) State.reset).toNat :=
  ⟨⟨rfl, rfl, rfl, rfl⟩, ⟨rfl, rfl, rfl, rfl⟩, modifyEdges⟩

theorem witness_JumpsJump :
    (ReadMapped 0x00FF ∧ ReadMapped (pair (hiByte 0x00FF) (loByte 0x00FF + 1))) ∧
    (ReadMapped 0x3FFF ∧ ReadMapped (pair (hiByte 0x3FFF) (loByte 0x3FFF + 1))) ∧ ¬ReadMapped 0x4000 :=
  ⟨⟨.inl (by decide), .inl (by decide)⟩, ⟨.inl (by decide), .inl (by decide)⟩, by unfold ReadMapped; decide⟩

theorem witness_RoundTrips :
    getFlag .C State.reset.p = false ∧ ∃ t, exec (.adcImm 0xFF) State.reset = .next t := ⟨by decide, _, rfl⟩

theorem witness_BranchesBranch :
    branchForm (.bpl 0x80) = some (0x10, .N, false, 0x80) ∧ branchForm (.bmi 0x7F) = some (0x30, .N, true, 0x7F) ∧
    branchForm (.bvc 0x00) = some (0x50, .V, false, 0x00) ∧ branchForm (.bvs 0xFF) = some (0x70, .V, true, 0xFF) ∧
    branchForm (.bcc 0x80) = some (0x90, .C, false, 0x80) ∧ branchForm (.bcs 0x7F) = some (0xB0, .C, true, 0x7F) ∧
    branchForm (.bne 0x00) = some (0xD0, .Z, false, 0x00) ∧ branchForm (.beq 0xFF) = some (0xF0, .Z, true, 0xFF) :=
  ⟨rfl, rfl, rfl, rfl, rfl, rfl, rfl, rfl⟩

theorem witness_FlagInstructionsAndNop :
    flagForm .clc = some (0x18, .C, false) ∧ flagForm .sec = some (0x38, .C, true) ∧
    flagForm .cli = some (0x58, .I, false) ∧ flagForm .sei = some (0x78, .I, true) ∧
    flagForm .cld = some (0xD8, .D, false) ∧ flagForm .sed = some (0xF8, .D, true) ∧
    flagForm .clv = some (0xB8, .V, false) := ⟨rfl, rfl, rfl, rfl, rfl, rfl, rfl⟩

/-- TXS writes no flag; a store to RAM writes no register. -/
theorem witness_FlagFrame :
    (∃ t, exec .txs State.reset = .next t) ∧ writesC .txs = false ∧ writesZN .txs = false ∧ writesI .txs = false ∧
    writesD .txs = false ∧ writesV .txs = false := ⟨⟨_, rfl⟩, rfl, rfl, rfl, rfl, rfl⟩

theorem witness_RegisterFrame :
    (∃ t, exec (.staAbs 0x0010) State.reset = .next t) ∧ writesA (.staAbs 0x0010) = false ∧
    writesX (.staAbs 0x0010) = false ∧ writesY (.staAbs 0x0010) = false ∧ writesSp (.staAbs 0x0010) = false :=
  ⟨next_of (by decide), rfl, rfl, rfl, rfl⟩

theorem storedAt_staAbs : storedAt (.staAbs 0x0000) State.reset = [0x0000] := rfl
theorem storedAt_data : storedAt (.staAbs 0x2007) State.reset = [0x2007] := rfl
theorem vramStoreIndex_data : vramStoreIndex (.staAbs 0x2007) State.reset = 0 := rfl
theorem storedAt_incAbs : storedAt (.incAbs 0x1FFF) State.reset = [0x1FFF] := rfl
theorem accessed_incAbs : accessed (.incAbs 0x1FFF) State.reset = [0x1FFF] := rfl

/-- A store below 0x2000 stores to no port. -/
theorem not_storesToPort {i : Instr} {s : State} {a : Addr} (h : storedAt i s = [a]) (ha : a.toNat < 0x2000)
    (n : Port) : ¬StoresToPort i s n := by
  rintro ⟨w, hw, h1, _⟩
  rw [h, List.mem_singleton] at hw
  subst hw
  omega

/-- A store to RAM at 0x0000, seen from the last RAM mirror, from the cartridge and from the PPU; and a store to
the data port, seen from the next VRAM byte. -/
theorem witness_MemoryFrame :
    ((∃ t, exec (.staAbs 0x0000) State.reset = .next t) ∧
      (0x1FFF#16).toNat < 0x2000 ∧ ¬StoresToRam (.staAbs 0x0000) State.reset 0x1FFF ∧ 0x8000 ≤ (0x8000#16).toNat ∧
      ¬(StoresToPort (.staAbs 0x0000) State.reset .data ∧ 0 = vramStoreIndex (.staAbs 0x0000) State.reset) ∧
      ¬(StoresToPort (.staAbs 0x0000) State.reset .oamData ∧ 0 = State.reset.ppu.oamAddr.toNat)) ∧
    (∃ t, exec (.staAbs 0x2007) State.reset = .next t) ∧
      ¬(StoresToPort (.staAbs 0x2007) State.reset .data ∧ 1 = vramStoreIndex (.staAbs 0x2007) State.reset) := by
  have hp := not_storesToPort storedAt_staAbs (by decide)
  refine ⟨⟨⟨_, rfl⟩, by decide, ?_, by decide, fun h => hp _ h.1, fun h => hp _ h.1⟩, ⟨_, rfl⟩, ?_⟩
  · rintro ⟨w, hw, _, h⟩
    rw [storedAt_staAbs, List.mem_singleton] at hw
    subst hw
    exact absurd h (by decide)
  · rintro ⟨_, h⟩
    rw [vramStoreIndex_data] at h
    exact absurd h (by decide)

theorem witness_SystemStateFrame :
    (∃ t, exec (.incAbs 0x1FFF) State.reset = .next t) ∧ ¬StoresToPort (.incAbs 0x1FFF) State.reset .control ∧
    ¬StoresToPort (.incAbs 0x1FFF) State.reset .mask ∧ ¬StoresToPort (.incAbs 0x1FFF) State.reset .oamAddress ∧
    ¬StoresToPort (.incAbs 0x1FFF) State.reset .oamData ∧ ¬StoresToPort (.incAbs 0x1FFF) State.reset .scroll ∧
    ¬TouchesPort (.incAbs 0x1FFF) State.reset := by
  have hp := not_storesToPort storedAt_incAbs (by decide)
  refine ⟨⟨_, rfl⟩, hp _, hp _, hp _, hp _, hp _, ?_⟩
  rintro ⟨w, hw, h, _⟩
  rw [accessed_incAbs, List.mem_singleton] at hw
  subst hw
  exact absurd h (by decide)

/-- The four places of the tick: in a line, at its end, at the vblank line and at the end of the frame. -/
theorem witness_TickMovesOneDot :
    ((dotState 0 338 338 0).ppu.x < 340 ∧ (dotState 0 338 338 0).ppu.y < 261 ∧ (dotState 0 338 338 0).ppu.x ≠ 339) ∧
    ((dotState 240 339 81939 0).ppu.x < 340 ∧ (dotState 240 339 81939 0).ppu.y < 261 ∧
      (dotState 240 339 81939 0).ppu.x = 339) ∧
    (dotState 260 339 88739 0).ppu.x < 340 ∧ (dotState 260 339 88739 0).ppu.y < 261 := by decide

theorem witness_VramWriteThenRead : State.reset.ppu.w = false := rfl

theorem witness_OamDmaMoves255Bytes :
    State.reset.halted = none ∧ ((0x00#8).toNat < 0x20 ∧ (0x1F#8).toNat < 0x20) ∧
    (0x80 ≤ (0x80#8).toNat ∧ 0x80 ≤ (0xFF#8).toNat) ∧
    (0x20 ≤ (0x20#8).toNat ∧ (0x20#8).toNat < 0x40) ∧ (0x20 ≤ (0x3F#8).toNat ∧ (0x3F#8).toNat < 0x40) ∧
    (0x40 ≤ (0x40#8).toNat ∧ (0x40#8).toNat < 0x80) ∧ 0x40 ≤ (0x7F#8).toNat ∧ (0x7F#8).toNat < 0x80 := by decide

theorem witness_RequestStopSetsOneBit : State.reset.halted = none := rfl

theorem witness_ResetOperationWritesPcAndP : State.reset.halted = none := rfl

end Sys2Proof.Tests
end

section
/-! Proofs of the family 00_scope.md: a fault leaves a halted machine that stays as it is (O21), and the
effective address of every memory mode as a number (O27). -/

namespace Sys2Proof.Proofs.Scope

open Sys2Proof Sys2Proof.Machine Sys2Proof.Forms

/-! ### What a fault leaves -/

/-- The fetch, also one that faults, is followed by no tick and moves neither a PPU counter nor the NMI latch. -/
theorem afterFetch_counters (s : State) :
    (afterFetch s).ppu.cycle = s.ppu.cycle ∧ (afterFetch s).ppu.x = s.ppu.x ∧
      (afterFetch s).ppu.y = s.ppu.y ∧ (afterFetch s).nmiPending = s.nmiPending := by
  rw [afterFetch_state s]
  exact ⟨rfl, rfl, rfl, rfl⟩

/-- Of the PPU after the fetch, a fault of either kind frees the two arrays at most. -/
theorem faultResidue_ppu (f : Fault) (s : State) :
    (faultResidue f s).ppu =
      { (afterFetch s).ppu with oam := (faultResidue f s).ppu.oam, vram := (faultResidue f s).ppu.vram } := by
  cases f with
  | busFault a => exact obscure_ppu (afterFetch s)
  | unimplementedInstruction opc => rfl

theorem faultResidue_nmiPending (f : Fault) (s : State) :
    (faultResidue f s).nmiPending = (afterFetch s).nmiPending := by
  cases f with
  | busFault a => exact obscure_nmiPending (afterFetch s)
  | unimplementedInstruction opc => rfl

/-- What a fault of either kind leaves has the PPU counters and the NMI latch of before the step (R324). -/
theorem faultResidue_counters (f : Fault) (s : State) :
    (faultResidue f s).ppu.cycle = s.ppu.cycle ∧ (faultResidue f s).ppu.x = s.ppu.x ∧
      (faultResidue f s).ppu.y = s.ppu.y ∧ (faultResidue f s).nmiPending = s.nmiPending := by
  rw [faultResidue_ppu, faultResidue_nmiPending]
  exact afterFetch_counters s

/-- A step that faults, on a running or a halted machine, leaves a halted machine that holds the fault, and
ticks no dot. -/
theorem haltedState_of_step_fault {s : State} {f : Fault} (h : step s = .fault f) :
    ∃ t, haltedState s = some t ∧ t.halted = some f ∧
      (t.ppu.cycle = s.ppu.cycle ∧ t.ppu.x = s.ppu.x ∧ t.ppu.y = s.ppu.y ∧ t.nmiPending = s.nmiPending) := by
  cases hh : s.halted with
  | some g =>
    rw [step_of_halted hh] at h
    cases h
    exact ⟨s, haltedState_of_halted hh, hh, rfl, rfl, rfl, rfl⟩
  | none => exact ⟨_, haltedState_of_fault hh h, rfl, faultResidue_counters f s⟩

/-- An instruction that faults after a successful fetch faults the step, and the machine halts with the PPU
registers as the reads of the fetch left them (R322). -/
theorem haltedAfter_of_exec_fault {s u : State} {i : Instr} {f : Fault} (hr : Running s)
    (hf : fetch s = .ok i u) (he : exec i u = .fault f) : step s = .fault f ∧ HaltedAfter s u := by
  obtain ⟨hh, hs⟩ := hr
  have hstep : step s = .fault f := by rw [step_of_fetch hh hs hf, he]
  refine ⟨hstep, _, haltedState_of_fault hh hstep, ?_⟩
  rw [← afterFetch_ok hf]
  exact ⟨faultResidue_ppu f s, faultResidue_nmiPending f s⟩

/-! ### Host actions -/

theorem hostHaltedState_of_halted {s : State} {f : Fault} (hh : s.halted = some f) (act : HostAction) :
    hostHaltedState act s = some s := by
  simp only [hostHaltedState, hh]

/-- On a running machine only a DMA can fault. -/
theorem hostAct_fault {act : HostAction} {s : State} {f : Fault} (hh : s.halted = none)
    (h : hostAct act s = .fault f) : ∃ page t, act = .oamDma page ∧ oamDma page s = .fault f t := by
  cases act with
  | requestStop => rw [hostAct_requestStop hh] at h; cases h
  | resetCpu => rw [hostAct_resetCpu hh] at h; cases h
  | oamDma page =>
    cases hd : oamDma page s with
    | ok _ t => rw [hostAct_oamDma hh hd] at h; cases h
    | fault g t =>
      rw [(hostAct_oamDma_fault hh hd).1] at h
      cases h
      exact ⟨page, t, rfl, hd⟩

/-- A host action that faults leaves a halted machine that holds the fault (log entry 11). -/
theorem hostHaltedState_of_fault {act : HostAction} {s : State} {f : Fault} (h : hostAct act s = .fault f) :
    ∃ t, hostHaltedState act s = some t ∧ t.halted = some f := by
  cases hh : s.halted with
  | some g =>
    rw [hostAct_of_halted hh] at h
    cases h
    exact ⟨s, hostHaltedState_of_halted hh act, hh⟩
  | none =>
    obtain ⟨page, t, rfl, hd⟩ := hostAct_fault hh h
    exact ⟨_, (hostAct_oamDma_fault hh hd).2, rfl⟩

/-- Settles O21: a step that faults does so before any tick, and what the fault leaves differs from the state
after the fetch in no PPU counter and not in the NMI latch; a halted machine answers its fault first. -/
theorem haltIsFinal : Obligations.HaltIsFinal :=
  ⟨fun _ _ => haltedState_of_step_fault,
    fun _ _ _ _ => haltedAfter_of_exec_fault,
    fun _ _ _ => hostHaltedState_of_fault,
    fun _ _ hh => ⟨step_of_halted hh, haltedState_of_halted hh,
      fun act => ⟨hostAct_of_halted hh act, hostHaltedState_of_halted hh act⟩⟩⟩

/-! ### Effective addresses -/

/-- A page-zero index wraps in page zero (R108, R114). -/
theorem toNat_zext16_add (b i : Byte) : (zext16 (b + i)).toNat = (b.toNat + i.toNat) % 0x100 := by
  rw [toNat_zext16, BitVec.toNat_add]

/-- An address index wraps modulo 0x10000 (R110, R115). -/
theorem toNat_add_zext16 (a : Addr) (i : Byte) : (a + zext16 i).toNat = (a.toNat + i.toNat) % 0x10000 := by
  rw [BitVec.toNat_add, toNat_zext16]

/-- The two pointer bytes come from page zero, the low one first (R9). -/
theorem toNat_read16Zp (b : Byte) (s : State) :
    (read16Zp b s).toNat =
      (s.ram.read ((b.toNat + 1) % 0x100)).toNat * 256 + (s.ram.read b.toNat).toNat := by
  rw [read16Zp, toNat_pair, ramIndex_zext16, ramIndex_zext16, BitVec.toNat_add]
  rfl

/-- R112: the pointer lies at the operand plus `X`, wrapped in page zero. -/
theorem toNat_effAddr_izx (b1 : Byte) (s : State) :
    (effAddr (.izx b1) s).toNat =
      (s.ram.read ((b1.toNat + s.x.toNat + 1) % 0x100)).toNat * 256
        + (s.ram.read ((b1.toNat + s.x.toNat) % 0x100)).toNat := by
  rw [effAddr, toNat_read16Zp, BitVec.toNat_add, Nat.mod_add_mod]

/-- R117: `Y` is added after the pointer has been read at the operand. -/
theorem toNat_effAddr_izy (b1 : Byte) (s : State) :
    (effAddr (.izy b1) s).toNat =
      ((s.ram.read ((b1.toNat + 1) % 0x100)).toNat * 256 + (s.ram.read b1.toNat).toNat + s.y.toNat)
        % 0x10000 := by
  rw [effAddr, toNat_add_zext16, toNat_read16Zp]

/-- Settles O27, one mode after the other, by the number of a zero extension, of an indexed sum and of a
page-zero pointer. -/
theorem effectiveAddresses : Obligations.EffectiveAddresses := fun b1 addr s =>
  ⟨toNat_zext16 b1, toNat_zext16_add b1 s.x, toNat_zext16_add b1 s.y, rfl, toNat_add_zext16 addr s.x,
    toNat_add_zext16 addr s.y, toNat_effAddr_izx b1 s, toNat_effAddr_izy b1 s⟩

end Sys2Proof.Proofs.Scope
end

section
/-! Proofs of the family 20_memory.md: the image that is too short (O9), the faulting accesses (O22), the
mirrors of RAM (O23) and of the ports (O24), and the address translation of the two mappers (O25). -/

namespace Sys2Proof.Proofs.Bus

open Sys2Proof Sys2Proof.Machine

/-! ### The cartridge image -/

/-- Settles O9: `parse` binds the header only when 16 bytes are there, and then compares the bytes after it
with the declared sizes; the length of the whole image is 16 more than that of those bytes. -/
theorem shortImageIsFormatError : Obligations.ShortImageIsFormatError := by
  intro raw h
  unfold parse
  split
  · next prgCount chrCount _ _ _ _ _ _ _ _ _ _ body =>
    have hbody : body.length < prgCount.toNat * 16384 + chrCount.toNat * 8192 := by
      simp only [List.length_cons, List.getD_cons_succ, List.getD_cons_zero] at h
      omega
    exact if_pos hbody
  · rfl

/-! ### Faults -/

/-- A write between the port window and the cartridge window, other than to the sink, faults (R57). -/
theorem memWrite_unmapped {a : Addr} (h1 : 0x4000 ≤ a.toNat) (hs : a ≠ 0x4017#16) (h2 : a.toNat < 0x8000)
    (v : Byte) (s : State) : memWrite a v s = .fault (.busFault a) := by
  have hr : regionOf a = .unmapped := by
    rw [regionOf, if_neg (by omega), if_neg (by omega), if_neg (by omega), if_neg hs]
  rw [memWrite, hr]

theorem memRead_fault_iff (a : Addr) (s u : State) (f : Fault) :
    memRead a s = .fault f u ↔ (0x4000 ≤ a.toNat ∧ a.toNat < 0x8000) ∧ f = .busFault a ∧ u = s := by
  refine ⟨memRead_fault, ?_⟩
  rintro ⟨⟨h1, h2⟩, rfl, rfl⟩
  exact memRead_unmapped h1 h2 u

theorem memWrite_fault_iff (a : Addr) (v : Byte) (s : State) (f : Fault) :
    memWrite a v s = .fault f ↔
      ((0x4000 ≤ a.toNat ∧ a ≠ 0x4017#16 ∧ a.toNat < 0x8000) ∨ 0x8000 ≤ a.toNat) ∧ f = .busFault a := by
  constructor
  · intro h
    obtain ⟨h1, hs, hf⟩ := memWrite_fault h
    exact ⟨(Nat.lt_or_ge a.toNat 0x8000).imp_left fun h2 => ⟨h1, hs, h2⟩, hf⟩
  · rintro ⟨⟨h1, hs, h2⟩ | h2, rfl⟩
    · exact memWrite_unmapped h1 hs h2 v s
    · exact memWrite_cartridge h2 v s

/-- Settles O22: the sink takes every write, and a fault of a read or of a write is the same as an address in
the list. -/
theorem busFaultsExactly : Obligations.BusFaultsExactly :=
  ⟨memWrite_sink, fun a v s f => ⟨fun u => memRead_fault_iff a s u f, memWrite_fault_iff a v s f⟩⟩

/-! ### Mirrors -/

/-- Settles O23: both accesses reach the RAM array at the address modulo its size, where it reads after a
write as every byte array does. -/
theorem ramMirrors : Obligations.RamMirrors := by
  intro a b v s ha hb
  refine ⟨_, memWrite_ram ha v s, rfl, ?_⟩
  rw [memRead_ram hb]
  exact congrArg (Res.ok · _) (Memory.read_write s.ram (ramIndex a) (ramIndex b) v)

/-- The port an address reaches depends on the address modulo 8 only (R54). -/
theorem portOf_congr {a b : Addr} (h : a.toNat % 8 = b.toNat % 8) : portOf a = portOf b := by
  rw [portOf, portOf, h]

/-- The first address of the port window that reaches port `n`. -/
theorem toNat_portAddr {n : Nat} (h : n < 8) : (0x2000#16 + BitVec.ofNat 16 n).toNat = 0x2000 + n := by
  rw [BitVec.toNat_add, BitVec.toNat_ofNat, BitVec.toNat_ofNat]
  omega

/-- Settles O24: an address of the window and the first mirror of its port agree modulo 8, and an access in
the window depends on the port alone. -/
theorem portMirrors : Obligations.PortMirrors := by
  intro a v s h1 h2
  have hn : a.toNat % 8 < 8 := Nat.mod_lt _ (by decide)
  have hm := toNat_portAddr hn
  have hport : portOf (0x2000#16 + BitVec.ofNat 16 (a.toNat % 8)) = portOf a :=
    portOf_congr (by rw [hm]; omega)
  constructor
  · rw [memRead_ports h1 h2, memRead_ports (by omega) (by omega), hport]
  · rw [memWrite_ports h1 h2, memWrite_ports (by omega) (by omega), hport]

/-! ### Mappers -/

/-- R61, the lower window. -/
theorem translate_mapper0_lower {a : Addr} (h : a.toNat ≤ 0xBFFF) (n : Nat) :
    translate .mapper0 n a = a.toNat - 0x8000 := if_pos (Nat.lt_succ_of_le h)

/-- R61, the upper window. -/
theorem translate_mapper0_upper {a : Addr} (h : 0xC000 ≤ a.toNat) (n : Nat) :
    translate .mapper0 n a = (n - 0x4000) + (a.toNat - 0xC000) := if_neg (Nat.not_lt.mpr h)

/-- R62. -/
theorem translate_mapper1 (a : Addr) (n : Nat) :
    translate .mapper1 n a = (a.toNat - 0x8000) % 0x4000 := rfl

/-- Settles O25: a read of the window gives the PRG byte at the translated address, in the one case of mapper 1
and the two of mapper 0. -/
theorem mapperTranslation : Obligations.MapperTranslation := by
  intro a s ha
  rw [memRead_cartridge ha, romByte]
  refine ⟨fun hm h => ?_, fun hm h => ?_, fun hm => ?_⟩
  · rw [hm, translate_mapper0_lower h]
  · rw [hm, translate_mapper0_upper h]
  · rw [hm, translate_mapper1]

end Sys2Proof.Proofs.Bus
end

section
/-! Proofs of the family 30_encoding.md: an opcode byte without a row faults before any operand byte is read, and
leaves the state after the opcode read (O15). -/

namespace Sys2Proof.Proofs.Encoding

open Sys2Proof Sys2Proof.Machine Sys2Proof.Forms

/-! ### Opcode bytes without a row -/

/-- No row of the table has an unassigned byte as its opcode (R121): decided for each part of the table. -/
theorem opcode_notMem_unassigned : ∀ r ∈ opcodeTable, r.opcode ∉ unassigned := by
  simp only [opcodeTable, List.forall_mem_append]
  and_intros <;> decide

/-- An unassigned byte is `Unknown` in both profiles: the extension mark of a row is never looked at (R121). -/
theorem lookup_of_unassigned {opc : Byte} (h : opc ∈ unassigned) (e : Bool) : lookup e opc = none := by
  have hfind : opcodeTable.find? (fun r => r.opcode == opc) = none := by
    rw [List.find?_eq_none]
    intro r hr heq
    rw [← eq_of_beq heq] at h
    exact opcode_notMem_unassigned r hr h
  rw [lookup, hfind]

/-! ### The fetch of such a byte -/

/-- The fetch stops at the opcode byte: no operand byte is read and `PC` is not advanced (R323). -/
theorem fetch_of_unknown {s u : State} {opc : Byte} (h : memRead s.pc s = .ok opc u)
    (hl : lookup s.extModes opc = none) : fetch s = .fault (.unimplementedInstruction opc) u := by
  rw [fetch, h, Res.bind_ok, hl]

/-- The step faults and the machine halts in the state after the opcode read (R323, R324, log entry 5). -/
theorem step_haltedState_of_unknown {s u : State} {opc : Byte} (hr : Running s) (h : memRead s.pc s = .ok opc u)
    (hl : lookup s.extModes opc = none) :
    step s = .fault (.unimplementedInstruction opc) ∧
      haltedState s = some { u with halted := some (.unimplementedInstruction opc) } := by
  obtain ⟨hh, hs⟩ := hr
  have hf := fetch_of_unknown h hl
  have hstep := step_of_fetch_fault hh hs hf
  refine ⟨hstep, ?_⟩
  rw [haltedState_of_fault hh hstep, faultResidue, afterFetch_fault hf]
  rfl

/-- A bus read changes no CPU register. -/
theorem memRead_registers {a : Addr} {s u : State} {v : Byte} (h : memRead a s = .ok v u) :
    u.pc = s.pc ∧ u.a = s.a ∧ u.x = s.x ∧ u.y = s.y ∧ u.sp = s.sp ∧ u.p = s.p := by
  rw [memRead_state h]
  exact ⟨rfl, rfl, rfl, rfl, rfl, rfl⟩

/-- Settles O15: an unassigned byte has no row in either profile, so it decodes to `Unknown`, its fetch faults
after the one bus read, and a bus read changes no register. -/
theorem unassignedOpcodeFaults : Obligations.UnassignedOpcodeFaults := by
  intro opc hmem
  have hl := lookup_of_unassigned hmem
  refine ⟨fun e rest => decode_unknown (hl e) rest, fun s u hr h => ?_⟩
  obtain ⟨hstep, hhalted⟩ := step_haltedState_of_unknown hr h (hl s.extModes)
  exact ⟨hstep, hhalted, memRead_registers h⟩

end Sys2Proof.Proofs.Encoding
end

section
/-! Proofs of the family 48_clock_coordinator.md: the order of one iteration (O20). -/

namespace Sys2Proof.Proofs.Coordinator

open Sys2Proof Sys2Proof.Machine Sys2Proof.Forms

/-- A stop request is seen at the top of the iteration, before the CPU step (R304). -/
theorem step_of_stopRequested {s : State} (hh : s.halted = none) (hs : s.stopRequested = true) :
    step s = .refused .stopped := by
  simp only [step, iterate, hh, hs, if_true]

/-- A fault of the CPU step ends the iteration: no tick and no NMI delivery follow (R301). -/
theorem step_of_cpuStep_fault {s : State} {f : Fault} (hr : Running s) (h : cpuStep s = .fault f) :
    step s = .fault f := by
  obtain ⟨hh, hs⟩ := hr
  simp only [step, iterate, hh, hs, h, Bool.false_eq_true, if_false]

/-- A CPU step that succeeds is followed by the rest of the iteration (R301). -/
theorem step_of_cpuStep_next {s v : State} (hr : Running s) (h : cpuStep s = .next v) :
    step s = .next (finishIteration v) := by
  obtain ⟨hh, hs⟩ := hr
  simp only [step, iterate, hh, hs, h, Bool.false_eq_true, if_false]

/-- Settles O20: the iteration looks at the stop request, then at the outcome of the CPU step, and
`finishIteration` is three ticks and then the delivery of a pending NMI. -/
theorem iterationOrder : Obligations.IterationOrder := by
  intro s hh
  refine ⟨fun hs => ?_, fun hs f hf => ?_, fun hs v hv => step_of_cpuStep_next ⟨hh, hs⟩ hv⟩
  · have hstep := step_of_stopRequested hh hs
    exact ⟨hstep, congrArg runEnd hstep⟩
  · have hstep := step_of_cpuStep_fault ⟨hh, hs⟩ hf
    exact ⟨hstep, congrArg runEnd hstep, congrArg (Option.map State.halted) (haltedState_of_fault hh hstep)⟩

end Sys2Proof.Proofs.Coordinator
end

section
/-! Proofs of the family 70_reset_and_hazards.md: `reset()` writes `PC` and `P` and nothing else (O2). -/

namespace Sys2Proof.Proofs.Reset

open Sys2Proof Sys2Proof.Machine Sys2Proof.Forms

/-! ### The flags of the mask -/

theorem getFlag_or (f : Flag) (p q : Byte) : getFlag f (p ||| q) = (getFlag f p || getFlag f q) :=
  BitVec.getLsbD_or

/-- The mask of `reset()` holds `I` and `U` and no other flag (R361). -/
theorem getFlag_resetMask (f : Flag) : getFlag f 0x24#8 = decide (f = .I ∨ f = .U) := by
  cases f <;> decide

theorem flagsBecome_or_resetMask (p : Byte) :
    FlagsBecome p (p ||| 0x24#8) (fun f => if f = .I ∨ f = .U then some true else none) := by
  intro f
  beta_reduce
  rw [getFlag_or, getFlag_resetMask]
  by_cases h : f = .I ∨ f = .U
  · rw [if_pos h, decide_eq_true h, Bool.or_true, Option.getD_some]
  · rw [if_neg h, decide_eq_false h, Bool.or_false, Option.getD_none]

/-! ### The operation -/

/-- The reset vector is the two bytes the cartridge window shows there; `PC` and `P` are written and nothing else
is (R361). -/
theorem resetCpu_state (s : State) :
    resetCpu s =
      { s with pc := pair (romByte s.cart 0xFFFD#16) (romByte s.cart 0xFFFC#16), p := s.p ||| 0x24#8 } := rfl

/-- Settles O2: both bytes of the vector lie in the cartridge window, where a read has no side effect, and on a
running machine the host's reset action is `reset()`. -/
theorem resetOperationWritesPcAndP : Obligations.ResetOperationWritesPcAndP := by
  intro s
  refine ⟨romByte s.cart 0xFFFC#16, romByte s.cart 0xFFFD#16, s.p ||| 0x24#8, memRead_cartridge (by decide) s,
    memRead_cartridge (by decide) s, flagsBecome_or_resetMask s.p, resetCpu_state s, fun hh => ?_⟩
  rw [hostAct_resetCpu hh, resetCpu_state]

end Sys2Proof.Proofs.Reset
end

section
/-! The operations behind the 151 instructions: every instruction runs one of some twenty operations, so that
a statement over all instructions is a case split over the operations. `exec_eq_run` ties them to the
model; the rows of R120 for each operation follow. -/

namespace Sys2Proof.Proofs.Operation

open Sys2Proof Sys2Proof.Machine Sys2Proof.Forms

/-! ### Operations -/

/-- The registers that instructions of one shape differ in. -/
inductive Reg where
  | a | x | y | sp
deriving DecidableEq

def Reg.get : Reg → State → Byte
  | .a => State.a
  | .x => State.x
  | .y => State.y
  | .sp => State.sp

def Reg.set : Reg → Byte → State → State
  | .a, v, s => s.setA v
  | .x, v, s => s.setX v
  | .y, v, s => s.setY v
  | .sp, v, s => s.setSp v

/-- What an instruction does with the operand it reads. -/
inductive Reader where
  | load (r : Reg)
  | sum (f : Byte → Byte → Byte → Sum)
  | logic (f : Byte → Byte → Byte)
  | compare (r : Reg)
  | bit

/-- The state after the operand `v` has been read from the state `s`, with `u` left by the read. -/
def Reader.apply (s : State) (v : Byte) (u : State) : Reader → State
  | .load r => (r.set v u).setP (setZN v u.p)
  | .sum f => (u.setA (f u.a v u.p).result).setP (sumFlags (f u.a v u.p) u.p)
  | .logic f => (u.setA (f u.a v)).setP (setZN (f u.a v) u.p)
  | .compare r => u.setP (compareFlags (r.get s) v u.p)
  | .bit => u.setP (bitFlags u.a v u.p)

/-- The operations that write a byte back where they read it. -/
inductive Modifier where
  | asl | lsr | rol | ror | inc | dec

def Modifier.byte : Modifier → Byte → Byte → Byte × Byte
  | .asl => aslByte
  | .lsr => lsrByte
  | .rol => rolByte
  | .ror => rorByte
  | .inc => incByte
  | .dec => decByte

/-- The operations of the instruction set. -/
inductive Op where
  | read (k : Reader) (o : Operand)
  | store (r : Reg) (m : MemMode)
  | modify (k : Modifier) (x : Target)
  /-- A register gets a byte of the state, and Z and N are of it. -/
  | assign (r : Reg) (v : State → Byte)
  | txs
  | branch (f : Flag) (b : Bool) (off : Byte)
  | flag (f : Flag) (b : Bool)
  | jump (addr : Addr)
  | jumpIndirect (addr : Addr)
  | call (addr : Addr)
  | ret
  | pushByte (v : State → Byte)
  | pla
  | plp
  | nop
  | brk
  | rti

def Op.run (s : State) : Op → Outcome
  | .read k o => (loadOperand o s).andThen fun v u => .next (k.apply s v u)
  | .store r m => storeByte m (r.get s) s
  | .modify k x => modifyTarget x k.byte s
  | .assign r v => .next ((r.set (v s) s).setP (setZN (v s) s.p))
  | .txs => .next (s.setSp s.x)
  | .branch f b off => branchIf (bif b then getFlag f s.p else !getFlag f s.p) off s
  | .flag f b => writeFlag f b s
  | .jump addr => .next (s.setPc addr)
  | .jumpIndirect addr => execJmpInd addr s
  | .call addr => execJsr addr s
  | .ret => execRts s
  | .pushByte v => .next (push (v s) s)
  | .pla => execPla s
  | .plp => execPlp s
  | .nop => .next s
  | .brk => execBrk s
  | .rti => execRti s

/-- The operation of each instruction. -/
def opOf : Instr → Op
  | .ldaImm v => .read (.load .a) (.imm v)
  | .ldaZp b1 => .read (.load .a) (.mem (.zp b1))
  | .ldaZpx b1 => .read (.load .a) (.mem (.zpx b1))
  | .ldaAbs addr => .read (.load .a) (.mem (.abs addr))
  | .ldaAbsx addr => .read (.load .a) (.mem (.absx addr))
  | .ldaAbsy addr => .read (.load .a) (.mem (.absy addr))
  | .ldaIzx b1 => .read (.load .a) (.mem (.izx b1))
  | .ldaIzy b1 => .read (.load .a) (.mem (.izy b1))
  | .ldxImm v => .read (.load .x) (.imm v)
  | .ldxZp b1 => .read (.load .x) (.mem (.zp b1))
  | .ldxZpy b1 => .read (.load .x) (.mem (.zpy b1))
  | .ldxAbs addr => .read (.load .x) (.mem (.abs addr))
  | .ldxAbsy addr => .read (.load .x) (.mem (.absy addr))
  | .ldyImm v => .read (.load .y) (.imm v)
  | .ldyZp b1 => .read (.load .y) (.mem (.zp b1))
  | .ldyZpx b1 => .read (.load .y) (.mem (.zpx b1))
  | .ldyAbs addr => .read (.load .y) (.mem (.abs addr))
  | .ldyAbsx addr => .read (.load .y) (.mem (.absx addr))
  | .staZp b1 => .store .a (.zp b1)
  | .staZpx b1 => .store .a (.zpx b1)
  | .staAbs addr => .store .a (.abs addr)
  | .staAbsx addr => .store .a (.absx addr)
  | .staAbsy addr => .store .a (.absy addr)
  | .staIzx b1 => .store .a (.izx b1)
  | .staIzy b1 => .store .a (.izy b1)
  | .stxZp b1 => .store .x (.zp b1)
  | .stxZpy b1 => .store .x (.zpy b1)
  | .stxAbs addr => .store .x (.abs addr)
  | .styZp b1 => .store .y (.zp b1)
  | .styZpx b1 => .store .y (.zpx b1)
  | .styAbs addr => .store .y (.abs addr)
  | .tax => .assign .x State.a
  | .tay => .assign .y State.a
  | .txa => .assign .a State.x
  | .tya => .assign .a State.y
  | .tsx => .assign .x State.sp
  | .txs => .txs
  | .adcImm v => .read (.sum adcSum) (.imm v)
  | .adcZp b1 => .read (.sum adcSum) (.mem (.zp b1))
  | .adcZpx b1 => .read (.sum adcSum) (.mem (.zpx b1))
  | .adcAbs addr => .read (.sum adcSum) (.mem (.abs addr))
  | .adcAbsx addr => .read (.sum adcSum) (.mem (.absx addr))
  | .adcAbsy addr => .read (.sum adcSum) (.mem (.absy addr))
  | .adcIzx b1 => .read (.sum adcSum) (.mem (.izx b1))
  | .adcIzy b1 => .read (.sum adcSum) (.mem (.izy b1))
  | .sbcImm v => .read (.sum sbcSum) (.imm v)
  | .sbcZp b1 => .read (.sum sbcSum) (.mem (.zp b1))
  | .sbcZpx b1 => .read (.sum sbcSum) (.mem (.zpx b1))
  | .sbcAbs addr => .read (.sum sbcSum) (.mem (.abs addr))
  | .sbcAbsx addr => .read (.sum sbcSum) (.mem (.absx addr))
  | .sbcAbsy addr => .read (.sum sbcSum) (.mem (.absy addr))
  | .sbcIzx b1 => .read (.sum sbcSum) (.mem (.izx b1))
  | .sbcIzy b1 => .read (.sum sbcSum) (.mem (.izy b1))
  | .andImm v => .read (.logic (· &&& ·)) (.imm v)
  | .andZp b1 => .read (.logic (· &&& ·)) (.mem (.zp b1))
  | .andZpx b1 => .read (.logic (· &&& ·)) (.mem (.zpx b1))
  | .andAbs addr => .read (.logic (· &&& ·)) (.mem (.abs addr))
  | .andAbsx addr => .read (.logic (· &&& ·)) (.mem (.absx addr))
  | .andAbsy addr => .read (.logic (· &&& ·)) (.mem (.absy addr))
  | .andIzx b1 => .read (.logic (· &&& ·)) (.mem (.izx b1))
  | .andIzy b1 => .read (.logic (· &&& ·)) (.mem (.izy b1))
  | .oraImm v => .read (.logic (· ||| ·)) (.imm v)
  | .oraZp b1 => .read (.logic (· ||| ·)) (.mem (.zp b1))
  | .oraZpx b1 => .read (.logic (· ||| ·)) (.mem (.zpx b1))
  | .oraAbs addr => .read (.logic (· ||| ·)) (.mem (.abs addr))
  | .oraAbsx addr => .read (.logic (· ||| ·)) (.mem (.absx addr))
  | .oraAbsy addr => .read (.logic (· ||| ·)) (.mem (.absy addr))
  | .oraIzx b1 => .read (.logic (· ||| ·)) (.mem (.izx b1))
  | .oraIzy b1 => .read (.logic (· ||| ·)) (.mem (.izy b1))
  | .eorImm v => .read (.logic (· ^^^ ·)) (.imm v)
  | .eorZp b1 => .read (.logic (· ^^^ ·)) (.mem (.zp b1))
  | .eorZpx b1 => .read (.logic (· ^^^ ·)) (.mem (.zpx b1))
  | .eorAbs addr => .read (.logic (· ^^^ ·)) (.mem (.abs addr))
  | .eorAbsx addr => .read (.logic (· ^^^ ·)) (.mem (.absx addr))
  | .eorAbsy addr => .read (.logic (· ^^^ ·)) (.mem (.absy addr))
  | .eorIzx b1 => .read (.logic (· ^^^ ·)) (.mem (.izx b1))
  | .eorIzy b1 => .read (.logic (· ^^^ ·)) (.mem (.izy b1))
  | .cmpImm v => .read (.compare .a) (.imm v)
  | .cmpZp b1 => .read (.compare .a) (.mem (.zp b1))
  | .cmpZpx b1 => .read (.compare .a) (.mem (.zpx b1))
  | .cmpAbs addr => .read (.compare .a) (.mem (.abs addr))
  | .cmpAbsx addr => .read (.compare .a) (.mem (.absx addr))
  | .cmpAbsy addr => .read (.compare .a) (.mem (.absy addr))
  | .cmpIzx b1 => .read (.compare .a) (.mem (.izx b1))
  | .cmpIzy b1 => .read (.compare .a) (.mem (.izy b1))
  | .cpxImm v => .read (.compare .x) (.imm v)
  | .cpxZp b1 => .read (.compare .x) (.mem (.zp b1))
  | .cpxAbs addr => .read (.compare .x) (.mem (.abs addr))
  | .cpyImm v => .read (.compare .y) (.imm v)
  | .cpyZp b1 => .read (.compare .y) (.mem (.zp b1))
  | .cpyAbs addr => .read (.compare .y) (.mem (.abs addr))
  | .bitZp b1 => .read .bit (.mem (.zp b1))
  | .bitAbs addr => .read .bit (.mem (.abs addr))
  | .incZp b1 => .modify .inc (.mem (.zp b1))
  | .incZpx b1 => .modify .inc (.mem (.zpx b1))
  | .incAbs addr => .modify .inc (.mem (.abs addr))
  | .incAbsx addr => .modify .inc (.mem (.absx addr))
  | .decZp b1 => .modify .dec (.mem (.zp b1))
  | .decZpx b1 => .modify .dec (.mem (.zpx b1))
  | .decAbs addr => .modify .dec (.mem (.abs addr))
  | .decAbsx addr => .modify .dec (.mem (.absx addr))
  | .inx => .assign .x (fun s => s.x + 1)
  | .iny => .assign .y (fun s => s.y + 1)
  | .dex => .assign .x (fun s => s.x - 1)
  | .dey => .assign .y (fun s => s.y - 1)
  | .aslAcc => .modify .asl .acc
  | .aslZp b1 => .modify .asl (.mem (.zp b1))
  | .aslZpx b1 => .modify .asl (.mem (.zpx b1))
  | .aslAbs addr => .modify .asl (.mem (.abs addr))
  | .aslAbsx addr => .modify .asl (.mem (.absx addr))
  | .lsrAcc => .modify .lsr .acc
  | .lsrZp b1 => .modify .lsr (.mem (.zp b1))
  | .lsrZpx b1 => .modify .lsr (.mem (.zpx b1))
  | .lsrAbs addr => .modify .lsr (.mem (.abs addr))
  | .lsrAbsx addr => .modify .lsr (.mem (.absx addr))
  | .rolAcc => .modify .rol .acc
  | .rolZp b1 => .modify .rol (.mem (.zp b1))
  | .rolZpx b1 => .modify .rol (.mem (.zpx b1))
  | .rolAbs addr => .modify .rol (.mem (.abs addr))
  | .rolAbsx addr => .modify .rol (.mem (.absx addr))
  | .rorAcc => .modify .ror .acc
  | .rorZp b1 => .modify .ror (.mem (.zp b1))
  | .rorZpx b1 => .modify .ror (.mem (.zpx b1))
  | .rorAbs addr => .modify .ror (.mem (.abs addr))
  | .rorAbsx addr => .modify .ror (.mem (.absx addr))
  | .jmpAbs addr => .jump addr
  | .jmpInd addr => .jumpIndirect addr
  | .jsr addr => .call addr
  | .rts => .ret
  | .bpl off => .branch .N false off
  | .bmi off => .branch .N true off
  | .bvc off => .branch .V false off
  | .bvs off => .branch .V true off
  | .bcc off => .branch .C false off
  | .bcs off => .branch .C true off
  | .bne off => .branch .Z false off
  | .beq off => .branch .Z true off
  | .pha => .pushByte State.a
  | .pla => .pla
  | .php => .pushByte State.p
  | .plp => .plp
  | .clc => .flag .C false
  | .sec => .flag .C true
  | .cli => .flag .I false
  | .sei => .flag .I true
  | .cld => .flag .D false
  | .sed => .flag .D true
  | .clv => .flag .V false
  | .nop => .nop
  | .brk => .brk
  | .rti => .rti

/-- An instruction means what its operation does. -/
theorem exec_eq_run (i : Instr) (s : State) : exec i s = (opOf i).run s := by
  cases i <;> rfl

end Sys2Proof.Proofs.Operation
end

section
/-! Proofs of the family other: which flags, registers, bytes of memory and parts of the system an instruction
changes (O50 to O53), and what reading an operand changes (O26). -/

namespace Sys2Proof.Proofs.Frames

open Sys2Proof Sys2Proof.Machine Sys2Proof.Forms Sys2Proof.Proofs.Operation

/-! ### Bus accesses and registers -/

/-- `t` has the CPU registers of `s`. -/
structure SameRegisters (s t : State) : Prop where
  a : t.a = s.a
  x : t.x = s.x
  y : t.y = s.y
  sp : t.sp = s.sp
  p : t.p = s.p

theorem memRead_sameRegisters {a : Addr} {s u : State} {v : Byte} (h : memRead a s = .ok v u) :
    SameRegisters s u := by
  rw [memRead_state h]
  exact ⟨rfl, rfl, rfl, rfl, rfl⟩

theorem loadOperand_sameRegisters {o : Operand} {s u : State} {v : Byte} (h : loadOperand o s = .ok v u) :
    SameRegisters s u := by
  rw [loadOperand_state h]
  exact ⟨rfl, rfl, rfl, rfl, rfl⟩

theorem memWrite_sameRegisters {a : Addr} {v : Byte} {s t : State} (h : memWrite a v s = .next t) :
    SameRegisters s t := by
  rcases memWrite_cases h with ⟨_, rfl⟩ | ⟨_, _, rfl⟩ | ⟨_, rfl⟩ <;> exact ⟨rfl, rfl, rfl, rfl, rfl⟩

/-- The address lies in the window of the PPU ports (R54). -/
abbrev InPorts (a : Addr) : Prop := 0x2000 ≤ a.toNat ∧ a.toNat < 0x4000

/-- Only a read of a PPU port has a side effect. -/
theorem memRead_of_notInPorts {a : Addr} {s u : State} {v : Byte} (h : memRead a s = .ok v u)
    (ha : ¬InPorts a) : u = s := by
  rcases regionOf_cases a with ⟨hr, _⟩ | ⟨_, hp⟩ | ⟨hr, _⟩ | ⟨hr, _⟩ | ⟨hr, _⟩
  · rw [memRead, hr] at h; cases h; rfl
  · exact absurd hp ha
  · rw [memRead, hr] at h; cases h; rfl
  · rw [memRead, hr] at h; cases h
  · rw [memRead, hr] at h; cases h

/-- Settles O26: a memory operand is one bus read, which changes the latch, the toggle and the count of draws at
most, and changes nothing outside the window of the ports. -/
theorem operandReadFrame : Obligations.OperandReadFrame :=
  ⟨loadOperand_imm, fun _ _ _ _ h => ⟨h, memRead_state h, memRead_of_notInPorts h⟩⟩

/-! ### Registers -/

/-- The registers an operation writes (R11 to R14). -/
def writesReg (r : Reg) : Op → Bool
  | .read (.load q) _ => q = r
  | .read (.sum _) _ => r = .a
  | .read (.logic _) _ => r = .a
  | .modify _ .acc => r = .a
  | .assign q _ => q = r
  | .txs => r = .sp
  | .call _ => r = .sp
  | .ret => r = .sp
  | .pushByte _ => r = .sp
  | .pla => r = .a ∨ r = .sp
  | .plp => r = .sp
  | .brk => r = .sp
  | .rti => r = .sp
  | _ => false

theorem get_set_of_ne {q r : Reg} (h : q ≠ r) (v : Byte) (s : State) : r.get (q.set v s) = r.get s := by
  cases q <;> cases r <;> simp [Reg.get, Reg.set] at h ⊢

theorem get_setP (r : Reg) (v : Byte) (s : State) : r.get (s.setP v) = r.get s := by
  cases r <;> rfl

theorem get_setPc (r : Reg) (v : Addr) (s : State) : r.get (s.setPc v) = r.get s := by
  cases r <;> rfl

/-- The stack operations change `SP` alone of the four. -/
theorem get_of_ne_sp {r : Reg} (hr : r ≠ .sp) {s t : State} (ha : t.a = s.a) (hx : t.x = s.x) (hy : t.y = s.y) :
    r.get t = r.get s := by
  cases r with
  | a => exact ha
  | x => exact hx
  | y => exact hy
  | sp => exact absurd rfl hr

theorem SameRegisters.get {s t : State} (h : SameRegisters s t) (r : Reg) : r.get t = r.get s := by
  cases r with
  | a => exact h.a
  | x => exact h.x
  | y => exact h.y
  | sp => exact h.sp

/-- Of the registers, the use of a read operand writes those of `writesReg`. -/
theorem get_apply {k : Reader} {o : Operand} {r : Reg} (hw : writesReg r (.read k o) = false) (s : State) (v : Byte)
    (u : State) : r.get (k.apply s v u) = r.get u := by
  cases k with
  | load q => exact (get_setP ..).trans (get_set_of_ne (of_decide_eq_false hw) v u)
  | sum f => exact (get_setP ..).trans (get_set_of_ne (q := .a) (Ne.symm (of_decide_eq_false hw)) _ u)
  | logic f => exact (get_setP ..).trans (get_set_of_ne (q := .a) (Ne.symm (of_decide_eq_false hw)) _ u)
  | compare q => exact get_setP ..
  | bit => exact get_setP ..

theorem run_get {op : Op} {s t : State} {r : Reg} (h : op.run s = .next t) (hw : writesReg r op = false) :
    r.get t = r.get s := by
  cases op with
  | read k o =>
    obtain ⟨v, u, hv, h⟩ := Res.andThen_next h
    cases h
    exact (get_apply hw s v u).trans ((loadOperand_sameRegisters hv).get r)
  | store q m => exact (memWrite_sameRegisters h).get r
  | modify k x =>
    cases x with
    | acc =>
      cases h
      exact (get_setP ..).trans (get_set_of_ne (q := .a) (Ne.symm (of_decide_eq_false hw)) _ s)
    | mem m =>
      obtain ⟨v, u, hr, hm⟩ := modifyTarget_mem_next h
      exact ((memWrite_sameRegisters hm).get r).trans ((get_setP ..).trans ((memRead_sameRegisters hr).get r))
  | assign q v => cases h; exact (get_setP ..).trans (get_set_of_ne (of_decide_eq_false hw) _ s)
  | txs => cases h; exact get_set_of_ne (q := .sp) (Ne.symm (of_decide_eq_false hw)) _ s
  | branch f b off => cases h; split; exacts [get_setPc .., rfl]
  | flag f b => cases h; exact get_setP ..
  | jump addr => cases h; exact get_setPc ..
  | jumpIndirect addr =>
    obtain ⟨lo, s1, hi, s2, h1, h2, rfl⟩ := execJmpInd_next h
    exact (get_setPc ..).trans (((memRead_sameRegisters h2).get r).trans ((memRead_sameRegisters h1).get r))
  | call addr => cases h; exact get_of_ne_sp (of_decide_eq_false hw) rfl rfl rfl
  | ret => cases h; exact get_of_ne_sp (of_decide_eq_false hw) rfl rfl rfl
  | pushByte v => cases h; exact get_of_ne_sp (of_decide_eq_false hw) rfl rfl rfl
  | pla =>
    cases h
    have hn : ¬(r = .a ∨ r = .sp) := of_decide_eq_false hw
    obtain ⟨ha, hsp⟩ := not_or.mp hn
    calc r.get (((pullState s).setA (pullByte s)).setP (setZN (pullByte s) s.p))
      _ = r.get (Reg.a.set (pullByte s) (pullState s)) := get_setP ..
      _ = r.get (pullState s) := get_set_of_ne (Ne.symm ha) ..
      _ = r.get s := get_of_ne_sp hsp rfl rfl rfl
  | plp => cases h; exact get_of_ne_sp (of_decide_eq_false hw) rfl rfl rfl
  | nop => cases h; rfl
  | brk =>
    cases h
    exact get_of_ne_sp (of_decide_eq_false hw) (interruptEntry_a ..) (interruptEntry_x ..) (interruptEntry_y ..)
  | rti => cases h; exact get_of_ne_sp (of_decide_eq_false hw) rfl rfl rfl

/-- The writers of the four registers are those of their operations. -/
theorem writesReg_opOf (i : Instr) :
    writesReg .a (opOf i) = writesA i ∧ writesReg .x (opOf i) = writesX i ∧
      writesReg .y (opOf i) = writesY i ∧ writesReg .sp (opOf i) = writesSp i := by
  cases i <;> exact ⟨rfl, rfl, rfl, rfl⟩

/-- Settles O51, by the operation of the instruction: each writes the registers that `writesReg` lists. -/
theorem registerFrame : Obligations.RegisterFrame := by
  intro i s t h
  rw [exec_eq_run] at h
  obtain ⟨ha, hx, hy, hsp⟩ := writesReg_opOf i
  exact ⟨fun hw => run_get (r := .a) h (ha.trans hw), fun hw => run_get (r := .x) h (hx.trans hw),
    fun hw => run_get (r := .y) h (hy.trans hw), fun hw => run_get (r := .sp) h (hsp.trans hw)⟩

/-! ### Flags -/

/-- The flags that the use of a read operand writes. -/
def readerFlags (f : Flag) : Reader → Bool
  | .load _ => f = .Z ∨ f = .N
  | .sum _ => f = .C ∨ f = .V ∨ f = .Z ∨ f = .N
  | .logic _ => f = .Z ∨ f = .N
  | .compare _ => f = .C ∨ f = .Z ∨ f = .N
  | .bit => f = .Z ∨ f = .N ∨ f = .V

/-- The flags that a read-modify-write writes. -/
def modifierFlags (f : Flag) : Modifier → Bool
  | .inc => f = .Z ∨ f = .N
  | .dec => f = .Z ∨ f = .N
  | _ => f = .C ∨ f = .Z ∨ f = .N

/-- The flags an operation writes (R19 to R21). -/
def writesFlag (f : Flag) : Op → Bool
  | .read k _ => readerFlags f k
  | .modify k _ => modifierFlags f k
  | .assign _ _ => f = .Z ∨ f = .N
  | .flag g _ => f = g
  | .pla => f = .Z ∨ f = .N
  | .plp => f ≠ .B ∧ f ≠ .U
  | .brk => f = .I
  | .rti => f ≠ .B ∧ f ≠ .U
  | _ => false

theorem getFlag_setZN_of_not {f : Flag} (h : decide (f = .Z ∨ f = .N) = false) (v p : Byte) :
    getFlag f (setZN v p) = getFlag f p := by
  obtain ⟨hz, hn⟩ := not_or.mp (of_decide_eq_false h)
  rw [getFlag_setZN, if_neg hn, if_neg hz]

/-- The flags of the shifts and of the compares. -/
theorem getFlag_setZN_setC_of_not {f : Flag} (h : decide (f = .C ∨ f = .Z ∨ f = .N) = false) (v : Byte) (c : Bool)
    (p : Byte) : getFlag f (setZN v (setFlag .C c p)) = getFlag f p := by
  obtain ⟨hc, hzn⟩ := not_or.mp (of_decide_eq_false h)
  rw [getFlag_setZN_of_not (decide_eq_false hzn), getFlag_setFlag_ne hc]

theorem getFlag_pulledFlags_of_not {f : Flag} (h : decide (f ≠ .B ∧ f ≠ .U) = false) (v p : Byte) :
    getFlag f (pulledFlags v p) = getFlag f p := by
  rw [getFlag_pulledFlags, if_pos]
  exact (Decidable.not_and_iff_not_or_not.mp (of_decide_eq_false h)).imp Decidable.not_not.mp Decidable.not_not.mp

theorem getFlag_apply {k : Reader} {f : Flag} (hw : readerFlags f k = false) (s : State) (v : Byte) (u : State) :
    getFlag f (k.apply s v u).p = getFlag f u.p := by
  cases k with
  | load q => exact getFlag_setZN_of_not hw ..
  | sum g =>
    simp only [readerFlags, decide_eq_false_iff_not, not_or] at hw
    simp [Reader.apply, getFlag_sumFlags, hw]
  | logic g => exact getFlag_setZN_of_not hw ..
  | compare q => exact getFlag_setZN_setC_of_not hw ..
  | bit =>
    simp only [readerFlags, decide_eq_false_iff_not, not_or] at hw
    simp [Reader.apply, getFlag_bitFlags, hw]

theorem getFlag_byte {k : Modifier} {f : Flag} (hw : modifierFlags f k = false) (v p : Byte) :
    getFlag f (k.byte v p).2 = getFlag f p := by
  cases k with
  | asl => exact getFlag_setZN_setC_of_not hw ..
  | lsr => exact getFlag_setZN_setC_of_not hw ..
  | rol => exact getFlag_setZN_setC_of_not hw ..
  | ror => exact getFlag_setZN_setC_of_not hw ..
  | inc => exact getFlag_setZN_of_not hw ..
  | dec => exact getFlag_setZN_of_not hw ..

theorem run_getFlag {op : Op} {s t : State} {f : Flag} (h : op.run s = .next t) (hw : writesFlag f op = false) :
    getFlag f t.p = getFlag f s.p := by
  cases op with
  | read k o =>
    obtain ⟨v, u, hv, h⟩ := Res.andThen_next h
    cases h
    rw [getFlag_apply hw, (loadOperand_sameRegisters hv).p]
  | store q m => rw [(memWrite_sameRegisters h).p]
  | modify k x =>
    cases x with
    | acc => cases h; exact getFlag_byte hw s.a s.p
    | mem m =>
      obtain ⟨v, u, hr, hm⟩ := modifyTarget_mem_next h
      rw [(memWrite_sameRegisters hm).p, State.setP_p, getFlag_byte hw, (memRead_sameRegisters hr).p]
  | assign q v => cases h; exact getFlag_setZN_of_not hw _ _
  | txs => cases h; rfl
  | branch g b off => cases h; split <;> rfl
  | flag g b => cases h; exact getFlag_setFlag_ne (of_decide_eq_false hw) b s.p
  | jump addr => cases h; rfl
  | jumpIndirect addr =>
    obtain ⟨lo, s1, hi, s2, h1, h2, rfl⟩ := execJmpInd_next h
    rw [State.setPc_p, (memRead_sameRegisters h2).p, (memRead_sameRegisters h1).p]
  | call addr => cases h; rfl
  | ret => cases h; rfl
  | pushByte v => cases h; rfl
  | pla => cases h; exact getFlag_setZN_of_not hw _ _
  | plp => cases h; exact getFlag_pulledFlags_of_not hw _ _
  | nop => cases h; rfl
  | brk => cases h; exact getFlag_setFlag_ne (of_decide_eq_false hw) true s.p
  | rti => cases h; exact getFlag_pulledFlags_of_not hw _ _

/-- The writers of the flags are those of their operations; no operation writes B or U (R17, R18). -/
theorem writesFlag_opOf (i : Instr) :
    writesFlag .C (opOf i) = writesC i ∧
      (writesFlag .Z (opOf i) = writesZN i ∧ writesFlag .N (opOf i) = writesZN i) ∧
      writesFlag .I (opOf i) = writesI i ∧ writesFlag .D (opOf i) = writesD i ∧
      writesFlag .V (opOf i) = writesV i ∧ writesFlag .B (opOf i) = false ∧ writesFlag .U (opOf i) = false := by
  cases i <;> exact ⟨rfl, ⟨rfl, rfl⟩, rfl, rfl, rfl, rfl, rfl⟩

/-- Settles O50, by the operation of the instruction: each writes the flags that `writesFlag` lists. -/
theorem flagFrame : Obligations.FlagFrame := by
  intro i s t h
  rw [exec_eq_run] at h
  obtain ⟨hC, ⟨hZ, hN⟩, hI, hD, hV, hB, hU⟩ := writesFlag_opOf i
  exact ⟨fun hw => run_getFlag h (hC.trans hw),
    fun hw => ⟨run_getFlag h (hZ.trans hw), run_getFlag h (hN.trans hw)⟩,
    fun hw => run_getFlag h (hI.trans hw), fun hw => run_getFlag h (hD.trans hw),
    fun hw => run_getFlag h (hV.trans hw), run_getFlag h hB, run_getFlag h hU⟩

end Sys2Proof.Proofs.Frames
end

section
/-! Proofs of the family other: which bytes of memory an instruction changes (O52), and what it changes of the rest
of the machine (O53). -/

namespace Sys2Proof.Proofs.SystemFrame

open Sys2Proof Sys2Proof.Machine Sys2Proof.Forms Sys2Proof.Proofs.Operation Sys2Proof.Proofs.Frames

/-! ### The accesses of an operation -/

def storeModeOf : Op → Option MemMode
  | .store _ m => some m
  | .modify _ (.mem m) => some m
  | _ => none

def pushesOf : Op → Nat
  | .call _ => 2
  | .pushByte _ => 1
  | .brk => 3
  | _ => 0

def readsBackOf : Op → Bool
  | .modify _ (.mem _) => true
  | _ => false

def accessedBy (s : State) : Op → List Addr
  | .read _ (.mem m) => [effAddr m s]
  | .store _ m => [effAddr m s]
  | .modify _ (.mem m) => [effAddr m s]
  | .jumpIndirect addr => [addr, pair (hiByte addr) (loByte addr + 1)]
  | _ => []

/-- The accesses of an instruction are those of its operation. -/
theorem accesses_opOf (i : Instr) :
    storeModeOf (opOf i) = storeMode i ∧ pushesOf (opOf i) = pushes i ∧ readsBackOf (opOf i) = readsBack i ∧
      ∀ s, accessedBy s (opOf i) = accessed i s := by
  cases i <;> exact ⟨rfl, rfl, rfl, fun _ => rfl⟩

/-- The VRAM latch, the toggle and the count of draws are the same. -/
def SameLatches (s t : State) : Prop := t.ppu.v = s.ppu.v ∧ t.ppu.w = s.ppu.w ∧ t.draws = s.draws

/-- `t` differs from `s` in the CPU registers at most, and, if one of the addresses lies in the window of the
ports, in what a port read changes. -/
structure Accesses (as : List Addr) (s t : State) : Prop where
  onlyRegisters : OnlyRegisters s t
  sameLatches : (∀ a ∈ as, ¬InPorts a) → SameLatches s t

theorem Accesses.of_onlyRegisters {as : List Addr} {s t : State} (h : OnlyRegisters s t) (hl : SameLatches s t) :
    Accesses as s t := ⟨h, fun _ => hl⟩

theorem accesses_memRead {a : Addr} {s u : State} {v : Byte} (h : memRead a s = .ok v u) (p : Byte) :
    Accesses [a] s (u.setP p) where
  onlyRegisters := by
    unfold OnlyRegisters
    rw [memRead_state h]
    rfl
  sameLatches ha := by
    rw [memRead_of_notInPorts h (ha a List.mem_cons_self)]
    exact ⟨rfl, rfl, rfl⟩

/-- The use of a read operand writes CPU registers only. -/
theorem apply_state (k : Reader) (s : State) (v : Byte) (u : State) :
    k.apply s v u =
      { u with
        a := (k.apply s v u).a, x := (k.apply s v u).x, y := (k.apply s v u).y
        sp := (k.apply s v u).sp, p := (k.apply s v u).p } := by
  cases k with
  | load r => cases r <;> rfl
  | _ => rfl

theorem accesses_read {k : Reader} {o : Operand} {s u : State} {v : Byte} (h : loadOperand o s = .ok v u) :
    Accesses (accessedBy s (.read k o)) s (k.apply s v u) where
  onlyRegisters := by
    unfold OnlyRegisters
    rw [apply_state, loadOperand_state h]
  sameLatches ha := by
    have hu : u = s := by
      cases o with
      | imm w => cases h; rfl
      | mem m => exact memRead_of_notInPorts h (ha _ List.mem_cons_self)
    rw [apply_state, hu]
    exact ⟨rfl, rfl, rfl⟩

theorem accesses_jumpIndirect {addr : Addr} {s t : State} (h : execJmpInd addr s = .next t) :
    Accesses (accessedBy s (.jumpIndirect addr)) s t where
  onlyRegisters := onlyRegisters_jmpInd h
  sameLatches ha := by
    obtain ⟨lo, s1, hi, s2, h1, h2, rfl⟩ := execJmpInd_next h
    have hs1 := memRead_of_notInPorts h1 (ha _ (by simp [accessedBy]))
    have hs2 := memRead_of_notInPorts h2 (ha _ (by simp [accessedBy]))
    rw [hs2, hs1]
    exact ⟨rfl, rfl, rfl⟩

/-! ### What an operation does -/

/-- What an operation without a store does: it pushes bytes, and apart from RAM its data accesses change the CPU
registers and what a port read changes. -/
structure PushesOnly (op : Op) (s t : State) : Prop where
  ram : ∃ bs : List Byte, bs.length = pushesOf op ∧ t.ram = (bs.foldl (fun u b => push b u) s).ram
  accesses : Accesses (accessedBy s op) s (t.setRam s.ram)

theorem PushesOnly.of_accesses {op : Op} {s t : State} (hp : pushesOf op = 0)
    (h : Accesses (accessedBy s op) s t) : PushesOnly op s t where
  ram := ⟨[], hp.symm, by rw [h.onlyRegisters]; rfl⟩
  accesses := by
    have ht : t.setRam s.ram = t := by
      rw [h.onlyRegisters]
      rfl
    rw [ht]
    exact h

theorem PushesOnly.of_onlyRegisters {op : Op} {s t : State} (hp : pushesOf op = 0)
    (h : OnlyRegisters s t) (hl : SameLatches s t) : PushesOnly op s t :=
  .of_accesses hp ⟨h, fun _ => hl⟩

theorem pushesOnly_call {addr : Addr} {s t : State} (h : execJsr addr s = .next t) : PushesOnly (.call addr) s t := by
  cases h
  refine ⟨⟨[hiByte (s.pc - 1), loByte (s.pc - 1)], rfl, rfl⟩, ?_⟩
  rw [pushAddr_state]
  exact ⟨rfl, fun _ => ⟨rfl, rfl, rfl⟩⟩

theorem pushesOnly_brk {s t : State} (h : execBrk s = .next t) : PushesOnly .brk s t := by
  cases h
  refine ⟨⟨[hiByte (s.pc + 1), loByte (s.pc + 1), s.p ||| 0x30#8], rfl, rfl⟩, ?_⟩
  rw [interruptEntry_state, push_state, push_state, push_state]
  exact ⟨rfl, fun _ => ⟨rfl, rfl, rfl⟩⟩

theorem pushesOnly_of_run {op : Op} {s t : State} (h : op.run s = .next t) (hs : storeModeOf op = none) :
    PushesOnly op s t := by
  cases op with
  | read k o =>
    obtain ⟨v, u, hv, h⟩ := Res.andThen_next h
    cases h
    exact .of_accesses rfl (accesses_read hv)
  | store q m => cases hs
  | modify k x =>
    cases x with
    | acc => cases h; exact .of_onlyRegisters rfl rfl ⟨rfl, rfl, rfl⟩
    | mem m => cases hs
  | assign q v => cases h; cases q <;> exact .of_onlyRegisters rfl rfl ⟨rfl, rfl, rfl⟩
  | txs => cases h; exact .of_onlyRegisters rfl rfl ⟨rfl, rfl, rfl⟩
  | branch g b off => cases h; split <;> exact .of_onlyRegisters rfl rfl ⟨rfl, rfl, rfl⟩
  | flag g b => cases h; exact .of_onlyRegisters rfl rfl ⟨rfl, rfl, rfl⟩
  | jump addr => cases h; exact .of_onlyRegisters rfl rfl ⟨rfl, rfl, rfl⟩
  | jumpIndirect addr => exact .of_accesses rfl (accesses_jumpIndirect h)
  | call addr => exact pushesOnly_call h
  | ret => cases h; exact .of_onlyRegisters rfl rfl ⟨rfl, rfl, rfl⟩
  | pushByte v => cases h; exact ⟨⟨[v s], rfl, rfl⟩, rfl, fun _ => ⟨rfl, rfl, rfl⟩⟩
  | pla => cases h; exact .of_onlyRegisters rfl rfl ⟨rfl, rfl, rfl⟩
  | plp => cases h; exact .of_onlyRegisters rfl rfl ⟨rfl, rfl, rfl⟩
  | nop => cases h; exact .of_onlyRegisters rfl rfl ⟨rfl, rfl, rfl⟩
  | brk => exact pushesOnly_brk h
  | rti =>
    cases h
    rw [returnFromInterrupt_state]
    exact .of_onlyRegisters rfl rfl ⟨rfl, rfl, rfl⟩

/-- What an operation with a store does: after the read of a read-modify-write, one bus write. -/
structure StoresOnce (op : Op) (m : MemMode) (s t : State) : Prop where
  write : ∃ u v, memWrite (effAddr m s) v u = .next t ∧ Accesses [effAddr m s] s u ∧
    (InPorts (effAddr m s) → portOf (effAddr m s) = .data →
      u.ppu.v = if readsBackOf op then s.ppu.v + vramInc s.ppu else s.ppu.v)
  accessed : accessedBy s op = [effAddr m s]

/-- A read of the data port moves the VRAM latch on (R271). -/
theorem memRead_data_v {a : Addr} {s u : State} {v : Byte} (h : memRead a s = .ok v u) (ha : InPorts a)
    (hp : portOf a = .data) : u.ppu.v = s.ppu.v + vramInc s.ppu := by
  rw [memRead_ports ha.1 ha.2, hp] at h
  cases h
  rfl

theorem storesOnce_of_run {op : Op} {s t : State} {m : MemMode} (h : op.run s = .next t)
    (hs : storeModeOf op = some m) : StoresOnce op m s t := by
  cases op with
  | store q n =>
    cases hs
    exact ⟨⟨s, q.get s, h, ⟨rfl, fun _ => ⟨rfl, rfl, rfl⟩⟩, fun _ _ => rfl⟩, rfl⟩
  | modify k x =>
    cases x with
    | acc => cases hs
    | mem n =>
      cases hs
      obtain ⟨v, u, hr, hw⟩ := modifyTarget_mem_next h
      exact ⟨⟨_, _, hw, accesses_memRead hr _, fun ha hp => memRead_data_v (u := u) hr ha hp⟩, rfl⟩
  | _ => cases hs

/-! ### The stores of an instruction -/

theorem storedAt_of_storeMode {i : Instr} {m : MemMode} (h : storeMode i = some m) (s : State) :
    effAddr m s ∈ storedAt i s := by
  simp [storedAt, h]

theorem storedAt_of_lt_pushes {i : Instr} {k : Nat} (h : k < pushes i) (s : State) :
    stackAddr (s.sp - BitVec.ofNat 8 k) ∈ storedAt i s :=
  List.mem_append_right _ (List.mem_map.mpr ⟨k, List.mem_range.mpr h, rfl⟩)

/-! ### RAM, VRAM and OAM -/

/-- Pushes change the stack bytes they reach and no other (R9). -/
theorem foldl_push_ram {n : Nat} (bs : List Byte) (s : State)
    (hn : ∀ k < bs.length, n ≠ ramIndex (stackAddr (s.sp - BitVec.ofNat 8 k))) :
    (bs.foldl (fun u b => push b u) s).ram.read n = s.ram.read n := by
  induction bs generalizing s with
  | nil => rfl
  | cons b bs ih =>
    have h0 := hn 0 (Nat.zero_lt_succ _)
    rw [List.foldl_cons, ih]
    · exact Memory.read_write_ne _ _ (by simpa using h0)
    · intro k hk
      have hsp : (push b s).sp - BitVec.ofNat 8 k = s.sp - BitVec.ofNat 8 (k + 1) := by
        rw [push_sp]
        bv_omega
      rw [hsp]
      exact hn (k + 1) (Nat.succ_lt_succ hk)

/-- A bus write changes the RAM byte its address reaches and no other (R53). -/
theorem memWrite_ram_read {a : Addr} {v : Byte} {s t : State} {n : Nat} (h : memWrite a v s = .next t)
    (hn : a.toNat < 0x2000 → ramIndex a ≠ n) : t.ram.read n = s.ram.read n := by
  rcases memWrite_cases h with ⟨ha, rfl⟩ | ⟨_, _, rfl⟩ | ⟨_, rfl⟩
  · exact Memory.read_write_ne _ _ (Ne.symm (hn ha))
  · rfl
  · rfl

/-- A bus write changes a VRAM byte through the data port only, at the latch (R271). -/
theorem memWrite_vram_read {a : Addr} {v : Byte} {s t : State} {n : Nat} (h : memWrite a v s = .next t)
    (hn : InPorts a → portOf a = .data → n ≠ vramIndex s.ppu) : t.ppu.vram.read n = s.ppu.vram.read n := by
  rcases memWrite_cases h with ⟨_, rfl⟩ | ⟨h1, h2, rfl⟩ | ⟨_, rfl⟩
  · rfl
  · rw [State.setPpu_ppu]
    by_cases hp : portOf a = .data
    · rw [hp]
      exact Memory.read_write_ne _ _ (hn ⟨h1, h2⟩ hp)
    · obtain ⟨_, _, _, _, hv, _⟩ := portWrite_frame (portOf a) v s.ppu
      rw [hv hp]
  · rfl

/-- A bus write changes an OAM byte through the OAM data port only, at the OAM address (R269). -/
theorem memWrite_oam_read {a : Addr} {v : Byte} {s t : State} {n : Nat} (h : memWrite a v s = .next t)
    (hn : InPorts a → portOf a = .oamData → n ≠ s.ppu.oamAddr.toNat) : t.ppu.oam.read n = s.ppu.oam.read n := by
  rcases memWrite_cases h with ⟨_, rfl⟩ | ⟨h1, h2, rfl⟩ | ⟨_, rfl⟩
  · rfl
  · rw [State.setPpu_ppu]
    by_cases hp : portOf a = .oamData
    · rw [hp]
      exact Memory.read_write_ne _ _ (hn ⟨h1, h2⟩ hp)
    · obtain ⟨_, _, _, _, _, ho⟩ := portWrite_frame (portOf a) v s.ppu
      rw [ho hp]
  · rfl

theorem memWrite_cart {a : Addr} {v : Byte} {s t : State} (h : memWrite a v s = .next t) : t.cart = s.cart := by
  rcases memWrite_cases h with ⟨_, rfl⟩ | ⟨_, _, rfl⟩ | ⟨_, rfl⟩ <;> rfl

/-- The memory frame of an instruction that stores to no memory operand. -/
theorem memoryFrame_of_pushesOnly {i : Instr} {s t : State} (h : PushesOnly (opOf i) s t) :
    (∀ a : Addr, ¬StoresToRam i s a → t.ram.read (ramIndex a) = s.ram.read (ramIndex a)) ∧
      t.cart = s.cart ∧ t.ppu.vram = s.ppu.vram ∧ t.ppu.oam = s.ppu.oam := by
  obtain ⟨⟨bs, hlen, hram⟩, hacc⟩ := h
  have hreg : t.setRam s.ram = _ := hacc.onlyRegisters
  refine ⟨fun a ha => ?_, (congrArg State.cart hreg :),
    (congrArg (fun u => u.ppu.vram) hreg :), (congrArg (fun u => u.ppu.oam) hreg :)⟩
  obtain ⟨_, hpushes, _⟩ := accesses_opOf i
  rw [hram]
  refine foldl_push_ram bs s fun k hk hidx => ha ⟨_, storedAt_of_lt_pushes (k := k) (by omega) s, ?_, hidx.symm⟩
  rw [toNat_stackAddr]
  omega

/-- Settles O52: an instruction without a memory store changes the bytes it pushes, one with a store what its one
bus write changes. -/
theorem memoryFrame : Obligations.MemoryFrame := by
  intro i s t h
  rw [exec_eq_run] at h
  obtain ⟨hmode, _, hback, _⟩ := accesses_opOf i
  cases hs : storeModeOf (opOf i) with
  | none =>
    obtain ⟨hram, hcart, hvram, hoam⟩ := memoryFrame_of_pushesOnly (pushesOnly_of_run h hs)
    exact ⟨fun a _ ha => hram a ha, fun a _ => by rw [hcart], fun k _ => by rw [hvram], fun k _ => by rw [hoam]⟩
  | some m =>
    obtain ⟨⟨u, v, hw, hacc, hdata⟩, _⟩ := storesOnce_of_run h hs
    have hmem := storedAt_of_storeMode (hmode.symm.trans hs) s
    have hreg : u = _ := hacc.onlyRegisters
    refine ⟨fun a _ ha => ?_, fun a _ => ?_, fun k hk => ?_, fun k hk => ?_⟩
    · rw [memWrite_ram_read hw fun hlt hidx => ha ⟨_, hmem, hlt, hidx⟩, hreg]
    · rw [memWrite_cart hw, hreg]
    · rw [memWrite_vram_read hw fun hin hp hidx => hk ⟨⟨_, hmem, hin.1, hin.2, hp⟩, ?_⟩, hreg]
      rw [hidx, vramIndex, hdata hin hp, vramStoreIndex, hback]
    · rw [memWrite_oam_read hw fun hin hp hidx => hk ⟨⟨_, hmem, hin.1, hin.2, hp⟩, ?_⟩, hreg]
      rw [hidx, hreg]

/-! ### The rest of the machine -/

/-- What O53 says of a change from `s` to `t` in which the ports that `stored` holds of are written, and a port is
accessed if `touched`. -/
structure SystemKept (stored : Port → Prop) (touched : Prop) (s t : State) : Prop where
  cart : t.cart = s.cart
  nmiPending : t.nmiPending = s.nmiPending
  halted : t.halted = s.halted
  stopRequested : t.stopRequested = s.stopRequested
  extModes : t.extModes = s.extModes
  statusReadClearsW : t.statusReadClearsW = s.statusReadClearsW
  x : t.ppu.x = s.ppu.x
  y : t.ppu.y = s.ppu.y
  cycle : t.ppu.cycle = s.ppu.cycle
  status : t.ppu.status = s.ppu.status
  ctrl : ¬stored .control → t.ppu.ctrl = s.ppu.ctrl
  mask : ¬stored .mask → t.ppu.mask = s.ppu.mask
  oamAddr : ¬stored .oamAddress → ¬stored .oamData → t.ppu.oamAddr = s.ppu.oamAddr
  scroll : ¬stored .scroll → t.ppu.scrollX = s.ppu.scrollX ∧ t.ppu.scrollY = s.ppu.scrollY
  latches : ¬touched → SameLatches s t

theorem SystemKept.trans {stored : Port → Prop} {touched : Prop} {s u t : State}
    (h : SystemKept stored touched s u) (h' : SystemKept stored touched u t) : SystemKept stored touched s t where
  cart := h'.cart.trans h.cart
  nmiPending := h'.nmiPending.trans h.nmiPending
  halted := h'.halted.trans h.halted
  stopRequested := h'.stopRequested.trans h.stopRequested
  extModes := h'.extModes.trans h.extModes
  statusReadClearsW := h'.statusReadClearsW.trans h.statusReadClearsW
  x := h'.x.trans h.x
  y := h'.y.trans h.y
  cycle := h'.cycle.trans h.cycle
  status := h'.status.trans h.status
  ctrl hn := (h'.ctrl hn).trans (h.ctrl hn)
  mask hn := (h'.mask hn).trans (h.mask hn)
  oamAddr ha hd := (h'.oamAddr ha hd).trans (h.oamAddr ha hd)
  scroll hn := ⟨(h'.scroll hn).1.trans (h.scroll hn).1, (h'.scroll hn).2.trans (h.scroll hn).2⟩
  latches hn :=
    have ⟨hv, hw, hd⟩ := h.latches hn
    have ⟨hv', hw', hd'⟩ := h'.latches hn
    ⟨hv'.trans hv, hw'.trans hw, hd'.trans hd⟩

theorem systemKept_of_accesses {stored : Port → Prop} {touched : Prop} {as : List Addr} {s t : State}
    (h : Accesses as s t) (ht : ¬touched → ∀ a ∈ as, ¬InPorts a) : SystemKept stored touched s t := by
  obtain ⟨hreg, hl⟩ := h
  rw [hreg]
  exact ⟨rfl, rfl, rfl, rfl, rfl, rfl, rfl, rfl, rfl, rfl, fun _ => rfl, fun _ => rfl, fun _ _ => rfl,
    fun _ => ⟨rfl, rfl⟩, fun hn => hl (ht hn)⟩

theorem systemKept_of_memWrite {stored : Port → Prop} {touched : Prop} {a : Addr} {v : Byte} {s t : State}
    (h : memWrite a v s = .next t) (hs : InPorts a → stored (portOf a)) (ht : ¬touched → ¬InPorts a) :
    SystemKept stored touched s t := by
  rcases memWrite_cases h with ⟨_, rfl⟩ | ⟨h1, h2, rfl⟩ | ⟨_, rfl⟩
  · exact ⟨rfl, rfl, rfl, rfl, rfl, rfl, rfl, rfl, rfl, rfl, fun _ => rfl, fun _ => rfl, fun _ _ => rfl,
      fun _ => ⟨rfl, rfl⟩, fun _ => ⟨rfl, rfl, rfl⟩⟩
  · have hn {n : Port} (h : ¬stored n) : portOf a ≠ n := fun hp => h (hp ▸ hs ⟨h1, h2⟩)
    obtain ⟨hx, hy, hcycle, hstatus⟩ := portWrite_counters (portOf a) v s.ppu
    obtain ⟨hctrl, hmask, hoamAddr, hscroll, _⟩ := portWrite_frame (portOf a) v s.ppu
    exact ⟨rfl, rfl, rfl, rfl, rfl, rfl, hx, hy, hcycle, hstatus, fun h => hctrl (hn h), fun h => hmask (hn h),
      fun h h' => hoamAddr (hn h) (hn h'), fun h => hscroll (hn h), fun h => absurd ⟨h1, h2⟩ (ht h)⟩
  · exact ⟨rfl, rfl, rfl, rfl, rfl, rfl, rfl, rfl, rfl, rfl, fun _ => rfl, fun _ => rfl, fun _ _ => rfl,
      fun _ => ⟨rfl, rfl⟩, fun _ => ⟨rfl, rfl, rfl⟩⟩

theorem systemKept_exec {i : Instr} {s t : State} (h : exec i s = .next t) :
    SystemKept (StoresToPort i s) (TouchesPort i s) s t := by
  rw [exec_eq_run] at h
  obtain ⟨hmode, _, _, hacc⟩ := accesses_opOf i
  have hquiet : ¬TouchesPort i s → ∀ a ∈ accessedBy s (opOf i), ¬InPorts a :=
    fun hn a ha hp => hn ⟨a, hacc s ▸ ha, hp⟩
  cases hs : storeModeOf (opOf i) with
  | none =>
    have hk : SystemKept (StoresToPort i s) (TouchesPort i s) s (t.setRam s.ram) :=
      systemKept_of_accesses (pushesOnly_of_run h hs).accesses hquiet
    exact ⟨hk.cart, hk.nmiPending, hk.halted, hk.stopRequested, hk.extModes, hk.statusReadClearsW, hk.x, hk.y,
      hk.cycle, hk.status, hk.ctrl, hk.mask, hk.oamAddr, hk.scroll, hk.latches⟩
  | some m =>
    obtain ⟨⟨u, v, hw, hu, _⟩, ha⟩ := storesOnce_of_run h hs
    have hmem := storedAt_of_storeMode (hmode.symm.trans hs) s
    have hq : ¬TouchesPort i s → ¬InPorts (effAddr m s) := fun hn =>
      hquiet hn _ (by rw [ha]; exact List.mem_cons_self)
    rw [ha] at hquiet
    exact (systemKept_of_accesses hu hquiet).trans
      (systemKept_of_memWrite hw (fun hp => ⟨_, hmem, hp.1, hp.2, rfl⟩) hq)

/-- Settles O53: an instruction is a read, with at most what a port read changes, then at most a few pushes or one
bus write. -/
theorem systemStateFrame : Obligations.SystemStateFrame := by
  intro i s t h
  have hk := systemKept_exec h
  exact ⟨hk.cart, hk.nmiPending, hk.halted, hk.stopRequested, hk.extModes, hk.statusReadClearsW, hk.x, hk.y,
    hk.cycle, hk.status, hk.ctrl, hk.mask, hk.oamAddr, hk.scroll, hk.latches⟩

end Sys2Proof.Proofs.SystemFrame
end

section
/-! Proofs of the family other: the machine invariant at reset (O4), after every step (O5) and after every action
of the host (O6). -/

namespace Sys2Proof.Proofs.Invariant

open Sys2Proof Sys2Proof.Machine Sys2Proof.Forms Sys2Proof.Proofs.Operation Sys2Proof.Proofs.Frames
  Sys2Proof.Proofs.SystemFrame Sys2Proof.Proofs.Reset

/-- Settles O4: the arrays of `State.reset` are empty and its counters 0. -/
theorem resetMeetsInvariant : Obligations.ResetMeetsInvariant := by
  unfold Obligations.ResetMeetsInvariant
  decide

/-! ### Memories -/

theorem memoriesWf_push {s : State} (h : s.MemoriesWf) (v : Byte) : (push v s).MemoriesWf := by
  obtain ⟨⟨hwf, hin⟩, hrest⟩ := h
  exact ⟨⟨Memory.write_wf hwf _ _, Memory.write_within hin (ramIndex_lt _) _⟩, hrest⟩

theorem memoriesWf_foldl_push {s : State} (h : s.MemoriesWf) (bs : List Byte) :
    (bs.foldl (fun u b => push b u) s).MemoriesWf := by
  induction bs generalizing s with
  | nil => exact h
  | cons b bs ih => exact ih (memoriesWf_push h b)

theorem memoriesWf_interruptEntry {s : State} (h : s.MemoriesWf) (ret : Addr) (pushed : Byte) (vec : Addr) :
    (interruptEntry ret pushed vec s).MemoriesWf := by
  have hpushed := memoriesWf_push (memoriesWf_push (memoriesWf_push h (hiByte ret)) (loByte ret)) pushed
  rw [interruptEntry_state]
  generalize push pushed (push (loByte ret) (push (hiByte ret) s)) = u at hpushed ⊢
  exact hpushed

theorem memoriesWf_memWrite {a : Addr} {v : Byte} {s t : State} (h : s.MemoriesWf)
    (hw : memWrite a v s = .next t) : t.MemoriesWf := by
  obtain ⟨⟨hwf, hin⟩, hvram, hoam, hcart⟩ := h
  rcases memWrite_cases hw with ⟨_, rfl⟩ | ⟨_, _, rfl⟩ | ⟨_, rfl⟩
  · exact ⟨⟨Memory.write_wf hwf _ _, Memory.write_within hin (ramIndex_lt _) _⟩, hvram, hoam, hcart⟩
  · obtain ⟨hvram', hoam'⟩ := portWrite_arrays (portOf a) v s.ppu hvram hoam
    exact ⟨⟨hwf, hin⟩, hvram', hoam', hcart⟩
  · exact ⟨⟨hwf, hin⟩, hvram, hoam, hcart⟩

/-- What a read of the bus and the CPU registers can change holds no byte array. -/
theorem memoriesWf_of_onlyRegisters {s t : State} (h : s.MemoriesWf) (ht : OnlyRegisters s t) : t.MemoriesWf := by
  rw [ht]
  exact h

theorem memoriesWf_exec {i : Instr} {s t : State} (h : s.MemoriesWf) (he : exec i s = .next t) : t.MemoriesWf := by
  rw [exec_eq_run] at he
  cases hs : storeModeOf (opOf i) with
  | none =>
    obtain ⟨⟨bs, _, hram⟩, hacc⟩ := pushesOnly_of_run he hs
    obtain ⟨_, hrest⟩ := memoriesWf_of_onlyRegisters h hacc.onlyRegisters
    obtain ⟨hpushed, _⟩ := memoriesWf_foldl_push h bs
    rw [← hram] at hpushed
    exact ⟨hpushed, hrest⟩
  | some m =>
    obtain ⟨⟨u, v, hw, hu, _⟩, _⟩ := storesOnce_of_run he hs
    exact memoriesWf_memWrite (memoriesWf_of_onlyRegisters h hu.onlyRegisters) hw

/-! ### The parts of a step -/

/-- The PPU invariant is about the counters and the status register (R37, R30, R261). -/
theorem ppuSound_congr {q r : Ppu} (h : q.Sound) (hx : r.x = q.x) (hy : r.y = q.y) (hc : r.cycle = q.cycle)
    (hs : r.status = q.status) : r.Sound := by
  rw [Ppu.Sound, hx, hy, hc, hs]
  exact h

theorem inv_fetch {s u : State} {i : Instr} (h : s.Inv) (hf : fetch s = .ok i u) : u.Inv := by
  rw [fetch_state hf]
  exact h

/-- An instruction keeps the invariant: it changes neither the cartridge nor a PPU counter nor the latch, it writes
neither B nor U, and its stores lie within the arrays. -/
theorem inv_exec {i : Instr} {s t : State} (h : s.Inv) (he : exec i s = .next t) : t.Inv := by
  obtain ⟨hmem, hcart, hppu, hU, hB, hnmi⟩ := h
  have hk := systemKept_exec he
  obtain ⟨_, _, _, _, _, hB', hU'⟩ := flagFrame i s t he
  exact ⟨memoriesWf_exec hmem he, hk.cart ▸ hcart, ppuSound_congr hppu hk.x hk.y hk.cycle hk.status,
    hU'.trans hU, hB'.trans hB, hk.nmiPending.trans hnmi⟩

/-- The invariant but for the latch, which a tick may set and the delivery clears. -/
abbrev InvButLatch (s : State) : Prop :=
  s.MemoriesWf ∧ s.cart.Sound ∧ s.ppu.Sound ∧ getFlag .U s.p = true ∧ getFlag .B s.p = false

theorem invButLatch_tick {s : State} (h : InvButLatch s) : InvButLatch (tick s) := by
  obtain ⟨⟨hram, hvram, hoam, hrom⟩, hcart, hppu, hP⟩ := h
  have hsound := advanceDot_sound hppu
  rw [tick_state]
  refine ⟨⟨hram, ?_, ?_, hrom⟩, hcart, hsound, hP⟩
  · rw [advanceDot_state]
    exact hvram
  · rw [advanceDot_state]
    exact hoam

theorem invButLatch_nmiEntry {s : State} (h : InvButLatch s) : InvButLatch (nmiEntry s) := by
  obtain ⟨hmem, hcart, hppu, hU, hB⟩ := h
  refine ⟨memoriesWf_interruptEntry hmem .., ?_, ?_, ?_, ?_⟩
  · rwa [nmiEntry_cart]
  · rwa [nmiEntry_ppu]
  · rwa [nmiEntry_p, getFlag_setFlag_ne (by decide)]
  · rwa [nmiEntry_p, getFlag_setFlag_ne (by decide)]

theorem invButLatch_deliverNmi {s : State} (h : InvButLatch s) : InvButLatch (deliverNmi s) := by
  unfold deliverNmi
  split
  · exact invButLatch_nmiEntry (s := s.setNmi false) h
  · exact h

theorem inv_finishIteration {s : State} (h : s.Inv) : (finishIteration s).Inv := by
  obtain ⟨hmem, hcart, hppu, hU, hB, _⟩ := h
  have h0 : InvButLatch s := ⟨hmem, hcart, hppu, hU, hB⟩
  obtain ⟨hmem', hcart', hppu', hU', hB'⟩ :=
    invButLatch_deliverNmi (invButLatch_tick (invButLatch_tick (invButLatch_tick h0)))
  exact ⟨hmem', hcart', hppu', hU', hB', deliverNmi_clears _⟩

/-- Settles O5: the fetch, the instruction, the three ticks and the NMI delivery each keep the invariant, and the
delivery clears the latch that a tick may have set. -/
theorem stepKeepsInvariant : Obligations.StepKeepsInvariant := by
  intro s t h hstep
  obtain ⟨_, _, i, u, v, hf, he, rfl⟩ := step_next hstep
  exact inv_finishIteration (inv_exec (inv_fetch h hf) he)

/-! ### Host actions -/

theorem inv_resetCpu {s : State} (h : s.Inv) : (resetCpu s).Inv := by
  obtain ⟨hmem, hcart, hppu, _, hB, hnmi⟩ := h
  have hp (f : Flag) : getFlag f (resetCpu s).p = (getFlag f s.p || decide (f = .I ∨ f = .U)) := by
    rw [resetCpu_state, getFlag_or, getFlag_resetMask]
  exact ⟨hmem, hcart, hppu, by simp [hp], by simp [hp, hB], hnmi⟩

/-- Each transfer of a DMA writes one OAM byte. -/
theorem inv_oamDmaFrom {n i : Nat} {page : Byte} {s t : State} (h : s.Inv)
    (hd : oamDmaFrom n i page s = .ok () t) : t.Inv := by
  induction n generalizing i s with
  | zero => cases hd; exact h
  | succ n ih =>
    obtain ⟨b, u, hb, hd⟩ := Res.bind_eq_ok hd
    have hu : u.Inv := by
      rw [memRead_state hb]
      exact h
    obtain ⟨⟨hram, hvram, ⟨hwf, hin⟩, hrom⟩, hrest⟩ := hu
    have hlt : (u.ppu.oamAddr.toNat + i) % Config.oamSize < Config.oamSize := Nat.mod_lt _ (by decide)
    refine ih ?_ hd
    exact ⟨⟨hram, hvram, ⟨Memory.write_wf hwf _ _, Memory.write_within hin hlt _⟩, hrom⟩, hrest⟩

/-- Settles O6: the stop request touches nothing of the invariant, `reset()` sets `U` and keeps `B`, and a DMA
writes OAM within its size. -/
theorem hostActionsKeepInvariant : Obligations.HostActionsKeepInvariant := by
  intro act s t h ha
  cases hh : s.halted with
  | some f => rw [hostAct_of_halted hh] at ha; cases ha
  | none =>
    cases act with
    | requestStop => rw [hostAct_requestStop hh] at ha; cases ha; exact h
    | resetCpu => rw [hostAct_resetCpu hh] at ha; cases ha; exact inv_resetCpu h
    | oamDma page =>
      simp only [hostAct, hh] at ha
      obtain ⟨_, u, hd, ha⟩ := Res.andThen_next ha
      cases ha
      exact inv_oamDmaFrom h hd

end Sys2Proof.Proofs.Invariant
end

section
/-! Proofs of the family other: the decoder and the encoder undo each other (O11, O12), which opcode bytes have no
row (O13), and the words written out from the spec (O14). -/

namespace Sys2Proof.Proofs.Decoding

open Sys2Proof Sys2Proof.Forms Sys2Proof.Proofs.Encoding

/-- Settles O11: the opcode byte of a well-formed instruction has its row, which makes the instruction of its
operand bytes. -/
theorem decodeUndoesEncode : Obligations.DecodeUndoesEncode := by
  intro e i rest hwf
  obtain ⟨f, hlookup, _, hreads⟩ := lookup_opcode e i
  rw [if_neg (by cases e <;> simp_all [WellFormed])] at hlookup
  exact decode_row hlookup hreads rest

/-! ### The table from the side of its rows -/

/-- What the row makes of operand bytes is encoded as these bytes after the row's opcode, and is of the extension
profile where the row is marked so. -/
def RowEncodes (r : OpcodeRow) : Prop :=
  match r.form with
  | .f1 i => (encode i, i.isExt) = ([r.opcode], r.ext)
  | .f2 mk => ∀ b1, (encode (mk b1), (mk b1).isExt) = ([r.opcode, b1], r.ext)
  | .f3 mk => ∀ addr, (encode (mk addr), (mk addr).isExt) = ([r.opcode, loByte addr, hiByte addr], r.ext)

theorem rowEncodes : ∀ r ∈ opcodeTable, RowEncodes r := by
  simp only [opcodeTable, List.forall_mem_append]
  and_intros <;>
    simp only [rowsLoadStore1, rowsLoadStore2, rowsArithmetic1, rowsArithmetic2, rowsArithmetic3, rowsShift,
      rowsControl, rowsStackSystem, List.forall_mem_cons, List.not_mem_nil, false_imp_iff, implies_true, and_true,
      RowEncodes] <;>
    and_intros <;> intros <;> rfl

theorem exists_row_of_lookup {e : Bool} {opc : Byte} {form : Form} (h : lookup e opc = some form) :
    ∃ r ∈ opcodeTable, r.opcode = opc ∧ r.form = form ∧ (r.ext = true → e = true) := by
  unfold lookup at h
  split at h
  · cases h
  · next r hr =>
    have hopc := List.find?_some hr
    refine ⟨r, List.mem_of_find?_eq_some hr, eq_of_beq hopc, ?_⟩
    split at h
    · cases h
    · next hext => exact ⟨Option.some.inj h, by simpa using hext⟩

theorem encode_of_reads {r : OpcodeRow} {i : Instr} {tail : List Byte} (hr : r ∈ opcodeTable)
    (h : Laws.OpcodeRow.Reads r.form i tail) : encode i = r.opcode :: tail ∧ i.isExt = r.ext := by
  have henc := rowEncodes r hr
  unfold RowEncodes at henc
  rw [← Prod.mk.injEq]
  cases hform : r.form with
  | f1 j =>
    rw [hform] at h henc
    obtain ⟨rfl, rfl⟩ := h
    exact henc
  | f2 mk =>
    rw [hform] at h henc
    obtain ⟨b1, rfl, rfl⟩ := h
    exact henc b1
  | f3 mk =>
    rw [hform] at h henc
    obtain ⟨addr, rfl, rfl⟩ := h
    exact henc addr

/-- Bytes that decode are an opcode byte with a row, the operand bytes of the row, and the rest. -/
theorem decode_cons_ok {e : Bool} {opc : Byte} {bs rest : List Byte} {i : Instr}
    (h : decode e (opc :: bs) = .ok (i, rest)) :
    ∃ form tail, lookup e opc = some form ∧ Laws.OpcodeRow.Reads form i tail ∧ bs = tail ++ rest := by
  simp only [decode] at h
  split at h <;> cases h
  · next hl => exact ⟨_, [], hl, ⟨rfl, rfl⟩, rfl⟩
  · next b1 hl => exact ⟨_, [b1], hl, ⟨b1, rfl, rfl⟩, rfl⟩
  · next b1 b2 hl => exact ⟨_, [b1, b2], hl, ⟨pair b2 b1, rfl, by simp⟩, rfl⟩

/-- Settles O12: the row that the opcode byte selects encodes what it makes of the operand bytes as the bytes that
were there. -/
theorem encodeUndoesDecode : Obligations.EncodeUndoesDecode := by
  intro e bs rest i h
  cases bs with
  | nil => cases h
  | cons opc bs =>
    obtain ⟨form, tail, hl, hreads, rfl⟩ := decode_cons_ok h
    obtain ⟨r, hr, rfl, rfl, hext⟩ := exists_row_of_lookup hl
    obtain ⟨henc, hi⟩ := encode_of_reads hr hreads
    exact ⟨fun h => hext (hi ▸ h), by rw [henc, List.cons_append]⟩

/-! ### The opcode map -/

/-- Every byte is unassigned or the opcode of a row: decided for the sixteen bytes of each high nibble. -/
theorem mem_unassigned_or_opcode :
    ∀ hi < 16, ∀ lo < 16, BitVec.ofNat 8 (16 * hi + lo) ∈ unassigned ∨
      BitVec.ofNat 8 (16 * hi + lo) ∈ opcodeTable.map OpcodeRow.opcode := by
  decide +kernel

theorem mem_unassigned_of_find?_none {opc : Byte}
    (h : opcodeTable.find? (fun r => r.opcode == opc) = none) : opc ∈ unassigned := by
  have hcover := mem_unassigned_or_opcode (opc.toNat / 16) (by omega) (opc.toNat % 16) (by omega)
  rw [Nat.div_add_mod, BitVec.ofNat_toNat, BitVec.setWidth_eq] at hcover
  refine hcover.resolve_right fun hmem => ?_
  obtain ⟨r, hr, rfl⟩ := List.mem_map.mp hmem
  simpa using List.find?_eq_none.mp h r hr

/-- A row is marked as an extension row exactly for the 20 bytes of R122: decided for each part of the table. -/
theorem ext_iff_extensionOnly : ∀ r ∈ opcodeTable, r.ext = true ↔ r.opcode ∈ extensionOnly := by
  simp only [opcodeTable, List.forall_mem_append]
  and_intros <;> decide

/-- Settles O13: a byte without a row is unassigned, since every byte is one of the two, and the bytes of extension
rows are those of R122. -/
theorem opcodeMapIsTotal : Obligations.OpcodeMapIsTotal := by
  intro opc
  cases hf : opcodeTable.find? (fun r => r.opcode == opc) with
  | none =>
    have hmem : opc ∈ unassigned := mem_unassigned_of_find?_none hf
    simp [lookup, hf, hmem]
  | some r =>
    have hr := List.mem_of_find?_eq_some hf
    have hopc : r.opcode = opc := by simpa using List.find?_some hf
    have hmem : opc ∉ unassigned := hopc ▸ opcode_notMem_unassigned r hr
    have hext : r.ext = true ↔ opc ∈ extensionOnly := hopc ▸ ext_iff_extensionOnly r hr
    simp [lookup, hf, hmem, hext]

/-- Settles O14, by running the decoder on each word. -/
theorem handEncodedWordsDecode : Obligations.HandEncodedWordsDecode :=
  ⟨rfl, rfl, rfl, rfl, rfl, rfl, rfl, rfl, rfl⟩

end Sys2Proof.Proofs.Decoding
end

section
/-! Proofs of the family other: the state after reset (O1), and which images a launch accepts, with which state
(O7, O8, O10). -/

namespace Sys2Proof.Proofs.Launch

open Sys2Proof Sys2Proof.Machine Sys2Proof.Forms Sys2Proof.Proofs.Reset

/-- Settles O1: the fields of `State.reset`; the blank cartridge shows 0 at both bytes of the vector. -/
theorem resetLeavesSpecValues : Obligations.ResetLeavesSpecValues := by
  and_intros <;> rfl

/-! ### Parsing -/

/-- The PRG size an image declares (R66). -/
abbrev prgSize (raw : List Byte) : Nat := (raw.getD 4 0).toNat * 16384

/-- The CHR size an image declares (R66). -/
abbrev chrSize (raw : List Byte) : Nat := (raw.getD 5 0).toNat * 8192

/-- What `parse` makes of an image it accepts (R65, R66). -/
def imageOf (raw : List Byte) : Image :=
  { header :=
      { prgCount := raw.getD 4 0, chrCount := raw.getD 5 0, flags6 := raw.getD 6 0, flags7 := raw.getD 7 0
        prgRamCount := raw.getD 8 0, flags9 := raw.getD 9 0, flags10 := raw.getD 10 0 }
    prgFile := imagePrg raw
    chrRom := (raw.drop (16 + prgSize raw)).take (chrSize raw) }

theorem mem_legalPrgCounts (b : Byte) : b ∈ legalPrgCounts ↔ b.toNat ∈ [1, 2, 4, 8, 16, 32, 64, 128] := by
  simp [legalPrgCounts, ← BitVec.toNat_inj]

/-- An image is accepted by its length, its tag and its PRG count, and no other way (R68, R69). -/
theorem parse_cases (raw : List Byte) :
    (ImageOk raw ∧ parse raw = .ok (imageOf raw)) ∨ (¬ImageOk raw ∧ parse raw = .error .formatError) := by
  unfold parse
  split
  · next t0 t1 t2 t3 prgCount chrCount f6 f7 ram f9 f10 b0 b1 b2 b3 b4 body =>
    have hok : ImageOk (t0 :: t1 :: t2 :: t3 :: prgCount :: chrCount :: f6 :: f7 :: ram :: f9 :: f10 :: b0 :: b1 ::
        b2 :: b3 :: b4 :: body) ↔
        ¬body.length < prgCount.toNat * Config.prgBank + chrCount.toNat * Config.chrUnit ∧
          ¬[t0, t1, t2, t3] ≠ [0x4E#8, 0x45#8, 0x53#8, 0x1A#8] ∧ ¬prgCount ∉ legalPrgCounts := by
      rw [mem_legalPrgCounts, not_not, not_not, not_lt]
      refine and_congr_left' ?_
      simp only [List.getD_cons_succ, List.getD_cons_zero, List.length_cons, Config.prgBank, Config.chrUnit]
      omega
    rw [hok]
    by_cases hlen : body.length < prgCount.toNat * Config.prgBank + chrCount.toNat * Config.chrUnit
    · exact .inr ⟨fun h => h.1 hlen, if_pos hlen⟩
    by_cases htag : [t0, t1, t2, t3] ≠ [0x4E#8, 0x45#8, 0x53#8, 0x1A#8]
    · exact .inr ⟨fun h => h.2.1 htag, (if_neg hlen).trans (if_pos htag)⟩
    by_cases hprg : prgCount ∉ legalPrgCounts
    · exact .inr ⟨fun h => h.2.2 hprg, (if_neg hlen).trans ((if_neg htag).trans (if_pos hprg))⟩
    refine .inl ⟨⟨hlen, htag, hprg⟩, (if_neg hlen).trans ((if_neg htag).trans ((if_neg hprg).trans ?_))⟩
    simp [imageOf, imagePrg, prgSize, chrSize, Nat.add_comm 16, Config.prgBank, Config.chrUnit]
  · next hshort =>
    refine .inr ⟨fun h => ?_, rfl⟩
    have hlen : 16 ≤ raw.length := (Nat.le_add_right ..).trans ((Nat.le_add_right ..).trans h.1)
    refine hshort raw[0] raw[1] raw[2] raw[3] raw[4] raw[5] raw[6] raw[7] raw[8] raw[9] raw[10] raw[11] raw[12] raw[13]
      raw[14] raw[15] (raw.drop 16) ?_
    simp only [← List.drop_eq_getElem_cons, List.drop_zero]

/-! ### The loaded cartridge -/

theorem launch_of_not_imageOk {prm : LaunchParams} (h : ¬ImageOk prm.image) : launch prm = .refused .formatError := by
  rcases parse_cases prm.image with ⟨hok, _⟩ | ⟨_, hp⟩
  · exact absurd hok h
  · rw [launch, hp]

theorem parse_of_imageOk {raw : List Byte} (h : ImageOk raw) : parse raw = .ok (imageOf raw) := by
  rcases parse_cases raw with ⟨_, hp⟩ | ⟨hn, _⟩
  · exact hp
  · exact absurd h hn

/-- The cartridge that the image loads, on the given mapper (R67). -/
def cartridgeOf (raw : List Byte) (m : Mapper) : Cartridge :=
  { header := (imageOf raw).header, mapper := m, prg := Memory.ofBytes (prgBuffer (imagePrg raw))
    prgLen := (prgBuffer (imagePrg raw)).length, chr := Memory.ofBytes (imageOf raw).chrRom
    chrLen := (imageOf raw).chrRom.length }

theorem launch_of_mapper {prm : LaunchParams} {m : Mapper} (h : ImageOk prm.image)
    (hm : mapperOf (imageMapper prm.image) = some m) :
    launch prm = .next (applyOverrides prm (resetCpu (construct prm (cartridgeOf prm.image m)))) := by
  have hm' : mapperOf (mapperId (imageOf prm.image).header) = some m := hm
  simp only [launch, parse_of_imageOk h, insertImage, hm']
  rfl

theorem launch_of_no_mapper {prm : LaunchParams} (h : ImageOk prm.image)
    (hm : mapperOf (imageMapper prm.image) = none) :
    launch prm = .refused (.unsupportedMapper (imageMapper prm.image)) := by
  have hm' : mapperOf (mapperId (imageOf prm.image).header) = none := hm
  simp only [launch, parse_of_imageOk h, insertImage, hm']
  rfl

/-- Settles O10: `parse` refuses what is not acceptable, and only the numbers 0 and 1 have a mapper. -/
theorem launchRefusals : Obligations.LaunchRefusals := by
  intro prm
  refine ⟨launch_of_not_imageOk, fun hok h0 h1 => launch_of_no_mapper hok ?_⟩
  rw [mapperOf, if_neg h0, if_neg h1]

/-! ### The cartridge of an accepted image -/

theorem length_imagePrg {raw : List Byte} (h : ImageOk raw) : (imagePrg raw).length = prgSize raw := by
  obtain ⟨hlen, _⟩ := h
  rw [imagePrg, List.length_take, List.length_drop, prgSize]
  omega

theorem length_chrRom {raw : List Byte} (h : ImageOk raw) : (imageOf raw).chrRom.length = chrSize raw := by
  obtain ⟨hlen, _⟩ := h
  rw [imageOf, List.length_take, List.length_drop, prgSize, chrSize]
  omega

/-- One bank is repeated to 32 KiB, and every other legal size is at least that (R67, R69). -/
theorem length_prgBuffer {raw : List Byte} (h : ImageOk raw) :
    (prgBuffer (imagePrg raw)).length = max 32768 (prgSize raw) := by
  have hlen := length_imagePrg h
  obtain ⟨_, _, hcount⟩ := h
  simp only [prgSize] at hlen ⊢
  unfold prgBuffer
  split
  · next hone =>
    simp only [Config.prgBank] at hone
    rw [List.length_append]
    omega
  · next hone =>
    simp only [Config.prgBank] at hone
    simp only [List.mem_cons, List.not_mem_nil, or_false] at hcount
    omega

/-- The PRG buffer holds the bytes of the image, repeated where there is one bank (R67). -/
theorem getD_prgBuffer {raw : List Byte} (h : ImageOk raw) {k : Nat} (hk : k < (prgBuffer (imagePrg raw)).length) :
    (prgBuffer (imagePrg raw)).getD k 0 = (imagePrg raw).getD (k % prgSize raw) 0 := by
  have hlen := length_imagePrg h
  rw [← hlen]
  unfold prgBuffer at hk ⊢
  split at hk
  · next hone =>
    rw [if_pos hone]
    rw [List.length_append] at hk
    by_cases hlt : k < (imagePrg raw).length
    · rw [List.getD_append _ _ _ _ hlt, Nat.mod_eq_of_lt hlt]
    · rw [List.getD_append_right _ _ _ _ (Nat.le_of_not_lt hlt), Nat.mod_eq_sub_mod (Nat.le_of_not_lt hlt),
        Nat.mod_eq_of_lt (by omega)]
  · next hone => rw [if_neg hone, Nat.mod_eq_of_lt hk]

/-- The CHR bytes are those of the image after its PRG bytes (R66). -/
theorem getD_chrRom {raw : List Byte} {k : Nat} (hk : k < chrSize raw) :
    (imageOf raw).chrRom.getD k 0 = raw.getD (16 + prgSize raw + k) 0 := by
  simp [imageOf, List.getD_eq_getElem?_getD, List.getElem?_take_of_lt hk]

theorem read_ofBytes_toList {n : Nat} (v : Vector Byte n) (k : Fin n) :
    (Memory.ofBytes v.toList).read k = v[k] := by
  rw [Memory.read_ofBytes]
  simp

/-! ### The launched state -/

/-- The overrides replace `PC` and `SP` and nothing else (R362). -/
theorem applyOverrides_state (prm : LaunchParams) (s : State) :
    applyOverrides prm s = { s with pc := prm.pcOverride.getD s.pc, sp := prm.spOverride.getD s.sp } := by
  unfold applyOverrides
  cases prm.pcOverride <;> cases prm.spOverride <;> rfl

/-- The machine that a launch with the given cartridge leaves. -/
theorem launched_state (prm : LaunchParams) (c : Cartridge) :
    applyOverrides prm (resetCpu (construct prm c)) =
      { construct prm c with
        pc := prm.pcOverride.getD (readVector Config.resetVector (construct prm c))
        sp := prm.spOverride.getD 0, p := 0x24 } := by
  have hp : (resetCpu (construct prm c)).p = 0x24 := BitVec.zero_or
  rw [applyOverrides_state, hp]
  rfl

theorem mapperOf_of_legal {b : Byte} (h : b = 0 ∨ b = 1) :
    mapperOf b = some (if b = 0 then .mapper0 else .mapper1) := by
  rcases h with rfl | rfl <;> rfl

/-- Settles O8: a launch accepts the image, and each array of the state it leaves reads as the bytes it was made
of. -/
theorem launchGivesInitialState : Obligations.LaunchGivesInitialState := by
  intro prm hok hmapper
  refine ⟨_, launch_of_mapper hok (mapperOf_of_legal hmapper), ?_⟩
  rw [launched_state]
  refine ⟨⟨rfl, rfl, rfl, rfl, rfl, rfl⟩,
    ⟨read_ofBytes_toList prm.ramInit, read_ofBytes_toList prm.vramInit, read_ofBytes_toList prm.oamInit⟩,
    ⟨rfl, rfl, length_prgBuffer hok, fun k hk => ?_, length_chrRom hok, fun k hk => ?_⟩,
    ⟨rfl, rfl, rfl, rfl, rfl, rfl, rfl, rfl, rfl, rfl, rfl⟩, rfl, rfl, rfl, rfl, rfl⟩
  · exact (Memory.read_ofBytes _ k).trans (getD_prgBuffer hok hk)
  · exact (Memory.read_ofBytes _ k).trans (getD_chrRom ((length_chrRom hok) ▸ hk))

/-! ### The invariant -/

theorem ofBytes_toList_wf_within {n : Nat} (v : Vector Byte n) :
    (Memory.ofBytes v.toList).wf ∧ (Memory.ofBytes v.toList).within n := by
  have h := Memory.ofBytes_within v.toList
  rw [Vector.length_toList] at h
  exact ⟨Memory.ofBytes_wf _, h⟩

theorem cartridgeOf_sound {raw : List Byte} (h : ImageOk raw) (m : Mapper) : (cartridgeOf raw m).Sound := by
  have hprg := length_prgBuffer h
  have hchr := length_chrRom h
  obtain ⟨_, _, hcount⟩ := h
  constructor
  · show (prgBuffer (imagePrg raw)).length ∈ _
    rw [hprg, prgSize]
    simp only [List.mem_cons, List.not_mem_nil, or_false, List.map_cons, List.map_nil, Config.prgBank] at hcount ⊢
    omega
  · show (imageOf raw).chrRom.length % Config.chrUnit = 0
    rw [hchr]
    exact Nat.mul_mod_left ..

/-- Settles O7: a launch that gives a state has accepted the image, and made each array of bytes of its size. -/
theorem launchMeetsInvariant : Obligations.LaunchMeetsInvariant := by
  intro prm s h
  by_cases hok : ImageOk prm.image
  · cases hm : mapperOf (imageMapper prm.image) with
    | none => rw [launch_of_no_mapper hok hm] at h; cases h
    | some m =>
      rw [launch_of_mapper hok hm, launched_state] at h
      cases h
      have hU : getFlag .U 0x24 = true := by decide
      have hB : getFlag .B 0x24 = false := by decide
      have hppu : Ppu.powerOn.Sound := by decide
      exact ⟨⟨ofBytes_toList_wf_within prm.ramInit, ofBytes_toList_wf_within prm.vramInit,
        ofBytes_toList_wf_within prm.oamInit, ⟨Memory.ofBytes_wf _, Memory.ofBytes_within _⟩,
        ⟨Memory.ofBytes_wf _, Memory.ofBytes_within _⟩⟩, cartridgeOf_sound hok m, hppu, hU, hB, rfl⟩
  · rw [launch_of_not_imageOk hok] at h
    cases h

end Sys2Proof.Proofs.Launch
end

section
/-! Proofs of the family other: the stop request (O3), the instruction that a step runs (O16), the faults of the
fetch (O17), and the three dots and the NMI of an iteration (O18, O19). -/

namespace Sys2Proof.Proofs.Iteration

open Sys2Proof Sys2Proof.Machine Sys2Proof.Forms Sys2Proof.Proofs.Scope Sys2Proof.Proofs.Encoding
  Sys2Proof.Proofs.Coordinator Sys2Proof.Proofs.SystemFrame Sys2Proof.Proofs.Decoding

/-- Settles O3: the next iteration sees the stop request at its top. -/
theorem requestStopSetsOneBit : Obligations.RequestStopSetsOneBit := by
  intro s hh
  have hstep : step { s with stopRequested := true } = .refused .stopped := step_of_stopRequested hh rfl
  exact ⟨hostAct_requestStop hh, hstep, congrArg runEnd hstep⟩

/-! ### The fetch -/

theorem length_of_reads {form : Form} {i : Instr} {tail : List Byte} (h : Laws.OpcodeRow.Reads form i tail) :
    form.length - 1 = tail.length ∧ form.length = tail.length + 1 := by
  cases form with
  | f1 j => obtain ⟨rfl, rfl⟩ := h; exact ⟨rfl, rfl⟩
  | f2 mk => obtain ⟨b1, rfl, rfl⟩ := h; exact ⟨rfl, rfl⟩
  | f3 mk => obtain ⟨addr, rfl, rfl⟩ := h; exact ⟨rfl, rfl⟩

/-- Bytes that decode to an instruction with none left over are what the fetch reads (R101). -/
theorem fetch_of_decode {s u : State} {bs : List Byte} {i : Instr} (hr : readBytes bs.length s.pc s = .ok bs u)
    (hd : decode s.extModes bs = .ok (i, [])) : fetch s = .ok i (u.setPc (s.pc + BitVec.ofNat 16 bs.length)) := by
  cases bs with
  | nil => cases hd
  | cons opc bs =>
    obtain ⟨form, tail, hl, hreads, htail⟩ := decode_cons_ok hd
    rw [List.append_nil] at htail
    subst htail
    obtain ⟨hlen, hlen'⟩ := length_of_reads hreads
    rw [List.length_cons, readBytes_succ] at hr
    obtain ⟨b, t, hb, hr⟩ := Res.bind_eq_ok hr
    obtain ⟨cs, w, hcs, hr⟩ := Res.bind_eq_ok hr
    cases hr
    rw [fetch_of_row hb hl, hlen, hcs, Res.bind_ok]
    simp only [hd, hlen', List.length_cons]

/-- Settles O16: the fetch reads the bytes, and the iteration goes on as it does after every instruction. -/
theorem stepRunsDecodedInstruction : Obligations.StepRunsDecodedInstruction := by
  intro s u bs i hrun hr hd
  obtain ⟨hh, hs⟩ := hrun
  rw [step_of_fetch hh hs (fetch_of_decode hr hd)]
  cases exec i (u.setPc (s.pc + BitVec.ofNat 16 bs.length)) <;> rfl

/-! ### Faults of the fetch -/

theorem memRead_of_not_readMapped {a : Addr} (h : ¬ReadMapped a) (s : State) :
    memRead a s = .fault (.busFault a) s := by
  obtain ⟨h1, h2⟩ := not_or.mp h
  exact memRead_unmapped (Nat.le_of_not_lt h1) (Nat.lt_of_not_le h2) s

/-- A fetch that faults faults the step, and the machine halts with the PPU registers as the reads before left
them (R322). -/
theorem haltedAfter_of_fetch_fault {s u : State} {f : Fault} (hr : Running s) (hf : fetch s = .fault f u) :
    step s = .fault f ∧ HaltedAfter s u := by
  obtain ⟨hh, hs⟩ := hr
  have hstep := step_of_fetch_fault hh hs hf
  refine ⟨hstep, _, haltedState_of_fault hh hstep, ?_⟩
  rw [← afterFetch_fault hf]
  exact ⟨faultResidue_ppu f s, faultResidue_nmiPending f s⟩

theorem lookup_of_extensionOnly {opc : Byte} (h : opc ∈ extensionOnly) : lookup false opc = none :=
  Option.isNone_iff_eq_none.mp ((opcodeMapIsTotal opc).2.mpr (.inr h))

/-- The first operand byte lies at an unmapped address. -/
theorem fetch_of_first_operand_unmapped {s u : State} {opc : Byte} {form : Form} (h : memRead s.pc s = .ok opc u)
    (hl : lookup s.extModes opc = some form) (hlen : 2 ≤ form.length) (hm : ¬ReadMapped (s.pc + 1)) :
    fetch s = .fault (.busFault (s.pc + 1)) u := by
  obtain ⟨n, hn⟩ : ∃ n, form.length - 1 = n + 1 := ⟨form.length - 2, by omega⟩
  rw [fetch_of_row h hl, hn, readBytes_succ, memRead_of_not_readMapped hm, Res.bind_fault, Res.bind_fault]

/-- The second operand byte lies at an unmapped address. -/
theorem fetch_of_second_operand_unmapped {s u w : State} {opc b : Byte} {form : Form}
    (h : memRead s.pc s = .ok opc u) (hb : memRead (s.pc + 1) u = .ok b w)
    (hl : lookup s.extModes opc = some form) (hlen : form.length = 3) (hm : ¬ReadMapped (s.pc + 1 + 1)) :
    fetch s = .fault (.busFault (s.pc + 1 + 1)) w := by
  rw [fetch_of_row h hl, hlen, readBytes_succ, hb, Res.bind_ok, readBytes_succ, memRead_of_not_readMapped hm,
    Res.bind_fault, Res.bind_fault, Res.bind_fault]

/-- Settles O17, by the byte at which the fetch faults: the opcode byte, an extension opcode, the first or the
second operand byte. -/
theorem fetchFaults : Obligations.FetchFaults := by
  refine ⟨fun s hr hm => ?_, fun opc s u hr h hext he => ?_, fun s u opc form hr h hl hlen hm => ?_,
    fun s hr hpc => ?_⟩
  · have hf : fetch s = .fault (.busFault s.pc) s := by
      rw [fetch, memRead_of_not_readMapped hm, Res.bind_fault]
    exact (haltedAfter_of_fetch_fault hr hf).1
  · obtain ⟨hstep, hhalted⟩ := step_haltedState_of_unknown hr h (he ▸ lookup_of_extensionOnly hext)
    exact ⟨hstep, hhalted, (memRead_registers h).1⟩
  · exact haltedAfter_of_fetch_fault hr (fetch_of_first_operand_unmapped h hl hlen hm)
  · obtain ⟨opc, u, h0⟩ : ∃ opc u, memRead 0x3FFE#16 s = .ok opc u :=
      ⟨_, _, memRead_ports (by decide) (by decide) s⟩
    obtain ⟨b, w, h1⟩ : ∃ b w, memRead 0x3FFF#16 u = .ok b w := ⟨_, _, memRead_ports (by decide) (by decide) u⟩
    refine ⟨opc, b, u, w, h0, h1, fun form hl hlen => haltedAfter_of_fetch_fault hr ?_⟩
    have hpc1 : s.pc + 1 = 0x3FFF#16 := by rw [hpc]; rfl
    have hpc2 : s.pc + 1 + 1 = 0x4000#16 := by rw [hpc1]; rfl
    rw [← hpc2]
    rw [← hpc] at h0
    rw [← hpc1] at h1
    exact fetch_of_second_operand_unmapped h0 h1 hl hlen (by rw [hpc2, ReadMapped]; decide)

/-! ### Three dots -/

theorem nmiCondition_x {q : Ppu} (h : nmiCondition q = true) : q.x = 1 := by
  simp only [nmiCondition, Bool.and_eq_true, beq_iff_eq] at h
  exact h.1.1.2

/-- Away from the end of the line the dot counter goes up by one, so the NMI dot is not met again. -/
theorem advanceDot_x_of_lt {q : Ppu} {n : Nat} (h : q.x = n) (hn : n < 339) : (advanceDot q).x = n + 1 := by
  rw [advanceDot_inside (by rw [h]; simp only [Config.dotsPerLine]; omega), h]

theorem nmiCondition_eq_false_of_x {q : Ppu} (h : q.x ≠ 1) : nmiCondition q = false :=
  Bool.eq_false_iff.mpr fun hq => h (nmiCondition_x hq)

/-- At most one of three successive dots meets the NMI condition. -/
theorem nmiCondition_three_dots (q : Ppu) :
    (nmiCondition q).toNat + (nmiCondition (advanceDot q)).toNat + (nmiCondition (advanceDot (advanceDot q))).toNat
      ≤ 1 := by
  cases h1 : nmiCondition q with
  | true =>
    have hx2 := advanceDot_x_of_lt (nmiCondition_x h1) (by decide)
    have hx3 := advanceDot_x_of_lt hx2 (by decide)
    rw [nmiCondition_eq_false_of_x (by omega), nmiCondition_eq_false_of_x (by omega)]
    decide
  | false =>
    cases h2 : nmiCondition (advanceDot q) with
    | true =>
      have hx3 := advanceDot_x_of_lt (nmiCondition_x h2) (by decide)
      rw [nmiCondition_eq_false_of_x (q := advanceDot (advanceDot q)) (by omega)]
      decide
    | false => cases nmiCondition (advanceDot (advanceDot q)) <;> decide

/-- What follows an instruction that leaves no NMI pending: three dots, and the NMI entry where one of them has
set the latch (R301, R303). -/
theorem finishIteration_of_no_nmi {v : State} (h : v.nmiPending = false) :
    finishIteration v =
      if nmiCondition (advanceDot v.ppu) || nmiCondition (advanceDot (advanceDot v.ppu)) ||
          nmiCondition (advanceDot (advanceDot (advanceDot v.ppu))) then
        nmiEntry { v with ppu := advanceDot (advanceDot (advanceDot v.ppu)) }
      else { v with ppu := advanceDot (advanceDot (advanceDot v.ppu)) } := by
  simp only [finishIteration, deliverNmi, tick_state, h, Bool.false_or]
  split
  · rfl
  · next hn => rw [Bool.eq_false_iff.mpr hn]

/-- Settles O18: the latch is clear before the ticks, so it is set after them exactly when a dot met the condition;
two dots after one at dot 1 are at dots 2 and 3. -/
theorem nmiDeliveredAfterThirdTick : Obligations.NmiDeliveredAfterThirdTick := by
  intro s u v i hr hf he hn
  refine ⟨?_, nmiCondition_three_dots (advanceDot v.ppu)⟩
  have hstep : step s = .next (finishIteration v) := by rw [step_of_fetch hr.1 hr.2 hf, he]
  rw [hstep, finishIteration_of_no_nmi hn]

/-- Where a dot leads depends on the place in the frame alone (R260). -/
theorem advanceDot_place_congr {q r : Ppu} (h : (q.x, q.y) = (r.x, r.y)) :
    ((advanceDot q).x, (advanceDot q).y) = ((advanceDot r).x, (advanceDot r).y) := by
  obtain ⟨hx, hy⟩ := Prod.mk.inj h
  by_cases he : r.x + 1 = Config.dotsPerLine
  · rw [advanceDot_lineEnd he, advanceDot_lineEnd (hx ▸ he)]
    simp only [nextLine, hy]
  · rw [advanceDot_inside he, advanceDot_inside (hx ▸ he)]
    simp only [hx, hy]

/-- The fetch changes no more of the machine around the CPU than port reads do. -/
theorem systemKept_fetch {s u : State} {i : Instr} (h : fetch s = .ok i u) :
    SystemKept (fun _ => False) True s u := by
  rw [fetch_state h]
  exact ⟨rfl, rfl, rfl, rfl, rfl, rfl, rfl, rfl, rfl, rfl, fun _ => rfl, fun _ => rfl, fun _ _ => rfl,
    fun _ => ⟨rfl, rfl⟩, fun hn => absurd trivial hn⟩

/-- Settles O19: neither the fetch nor the instruction touches the counters, the cartridge, the launch parameters
or the latches of the host; then come three dots. -/
theorem stepAdvancesPpuByThree : Obligations.StepAdvancesPpuByThree := by
  intro s t h
  obtain ⟨hh, hs, i, u, v, hf, he, rfl⟩ := step_next h
  have hk := systemKept_exec he
  have hu := systemKept_fetch hf
  have hplace : (v.ppu.x, v.ppu.y) = (s.ppu.x, s.ppu.y) := by rw [hk.x, hk.y, hu.x, hu.y]
  refine ⟨?_, ?_, deliverNmi_clears _, ?_, ?_, ?_, ?_, ?_⟩
  · rw [finishIteration_ppu, advanceDot_cycle, advanceDot_cycle, advanceDot_cycle, hk.cycle, hu.cycle]
  · rw [finishIteration_ppu]
    exact advanceDot_place_congr (advanceDot_place_congr (advanceDot_place_congr hplace))
  · rw [finishIteration_cart, hk.cart, hu.cart]
  · rw [finishIteration_extModes, hk.extModes, hu.extModes]
  · rw [finishIteration_statusReadClearsW, hk.statusReadClearsW, hu.statusReadClearsW]
  · rw [finishIteration_halted, hk.halted, hu.halted, hh]
  · rw [finishIteration_stopRequested, hk.stopRequested, hu.stopRequested, hs]

end Sys2Proof.Proofs.Iteration
end

section
/-! Proofs of the family other: the rows of R120 and the operations behind them, for the instructions that read an
operand (O28, O31, O33 to O35), that store one (O29), that modify one (O36, O38), and that work on registers
alone (O30, O37). -/

namespace Sys2Proof.Proofs.Operands

open Sys2Proof Sys2Proof.Machine Sys2Proof.Forms Sys2Proof.Proofs.Operation Sys2Proof.Proofs.Frames
  Sys2Proof.Proofs.Bus Sys2Proof.Proofs.Iteration

/-! ### Rows -/

/-- Every instruction is encoded as its row says, in both profiles. -/
theorem encodedBy (i : Instr) : EncodedBy i i.opcode i.isExt i.operandBytes := by
  refine ⟨rfl, fun e rest => ?_⟩
  obtain ⟨f, hl, _, hreads⟩ := lookup_opcode e i
  split
  · next h => exact decode_unknown (hl.trans (if_pos h)) _
  · next h => exact decode_row (hl.trans (if_neg h)) hreads rest

/-- The row of `i`: its opcode byte, its mark, its operand bytes and its operation. -/
structure IsRow (i : Instr) (opc : Byte) (star : Bool) (tail : List Byte) (op : Op) : Prop where
  opcode : i.opcode = opc
  ext : i.isExt = star
  operands : i.operandBytes = tail
  op : opOf i = op

theorem IsRow.encodedBy {i : Instr} {opc : Byte} {star : Bool} {tail : List Byte} {op : Op}
    (h : IsRow i opc star tail op) : EncodedBy i opc star tail := by
  obtain ⟨rfl, rfl, rfl, _⟩ := h
  exact Operands.encodedBy i

theorem IsRow.exec {i : Instr} {opc : Byte} {star : Bool} {tail : List Byte} {op : Op}
    (h : IsRow i opc star tail op) (s : State) : Machine.exec i s = op.run s := by
  rw [exec_eq_run, h.op]

/-- Every row of `form` has its opcode byte, mark and operand bytes, and the operation that `op` makes of its
operand. -/
def Rows {α : Type} (form : Instr → Option (Byte × Bool × α)) (bytes : α → List Byte) (op : α → Op) : Prop :=
  ∀ i opc star x, form i = some (opc, star, x) → IsRow i opc star (bytes x) (op x)

theorem readRows :
    Rows ldaForm operandBytes (.read (.load .a)) ∧ Rows ldxForm operandBytes (.read (.load .x)) ∧
    Rows ldyForm operandBytes (.read (.load .y)) ∧ Rows adcForm operandBytes (.read (.sum adcSum)) ∧
    Rows sbcForm operandBytes (.read (.sum sbcSum)) ∧ Rows andForm operandBytes (.read (.logic (· &&& ·))) ∧
    Rows oraForm operandBytes (.read (.logic (· ||| ·))) ∧ Rows eorForm operandBytes (.read (.logic (· ^^^ ·))) ∧
    Rows cmpForm operandBytes (.read (.compare .a)) ∧ Rows cpxForm operandBytes (.read (.compare .x)) ∧
    Rows cpyForm operandBytes (.read (.compare .y)) := by
  and_intros <;> intro i opc star o h <;>
    simp only [ldaForm, ldxForm, ldyForm, adcForm, sbcForm, andForm, oraForm, eorForm, cmpForm, cpxForm, cpyForm] at h
  all_goals split at h <;> cases h <;> exact ⟨rfl, rfl, rfl, rfl⟩

theorem modeRows :
    Rows bitForm modeBytes (fun m => .read .bit (.mem m)) ∧ Rows staForm modeBytes (.store .a) ∧
    Rows stxForm modeBytes (.store .x) ∧ Rows styForm modeBytes (.store .y) ∧
    Rows incForm modeBytes (fun m => .modify .inc (.mem m)) ∧
    Rows decForm modeBytes (fun m => .modify .dec (.mem m)) := by
  and_intros <;> intro i opc star o h <;>
    simp only [bitForm, staForm, stxForm, styForm, incForm, decForm] at h
  all_goals split at h <;> cases h <;> exact ⟨rfl, rfl, rfl, rfl⟩

theorem targetRows :
    Rows aslForm targetBytes (.modify .asl) ∧ Rows lsrForm targetBytes (.modify .lsr) ∧
    Rows rolForm targetBytes (.modify .rol) ∧ Rows rorForm targetBytes (.modify .ror) := by
  and_intros <;> intro i opc star o h <;> simp only [aslForm, lsrForm, rolForm, rorForm] at h
  all_goals split at h <;> cases h <;> exact ⟨rfl, rfl, rfl, rfl⟩

/-! ### Flags -/

theorem msb_eq_decide (v : Byte) : v.msb = decide (128 ≤ v.toNat) := BitVec.msb_eq_decide v

theorem beq_zero_eq_decide (v : Byte) : (v == 0) = decide (v.toNat = 0) := by
  rw [Bool.eq_iff_iff, beq_iff_eq, decide_eq_true_iff, ← BitVec.toNat_inj]
  rfl

theorem flagsBecome_setZN (v p : Byte) : FlagsBecome p (setZN v p) (znOf v) := by
  intro f
  rw [getFlag_setZN, msb_eq_decide, beq_zero_eq_decide]
  cases f <;> rfl

/-- C is written first, then Z and N. -/
theorem flagsBecome_setZN_setC (v : Byte) (c : Bool) (p : Byte) :
    FlagsBecome p (setZN v (setFlag .C c p)) (cznOf c v) := by
  intro f
  rw [getFlag_setZN, msb_eq_decide, beq_zero_eq_decide, getFlag_setFlag]
  cases f <;> rfl

theorem flagsBecome_sumFlags (r : Sum) (p : Byte) :
    FlagsBecome p (sumFlags r p) (cvznOf r.carry r.overflow r.result) := by
  intro f
  rw [getFlag_sumFlags, msb_eq_decide, beq_zero_eq_decide]
  cases f <;> rfl

theorem flagsBecome_bitFlags (a m p : Byte) : FlagsBecome p (bitFlags a m p) (bitOf a m) := by
  intro f
  rw [getFlag_bitFlags, beq_zero_eq_decide]
  cases f <;> rfl

/-! ### Operands that are read -/

theorem memRead_of_readMapped {a : Addr} (h : ReadMapped a) (s : State) : ∃ v u, memRead a s = .ok v u := by
  rcases h with h | h
  · by_cases hram : a.toNat < 0x2000
    · exact ⟨_, _, memRead_ram hram s⟩
    · exact ⟨_, _, memRead_ports (Nat.le_of_not_lt hram) h s⟩
  · exact ⟨_, _, memRead_cartridge h s⟩

theorem loadOperand_of_readable {o : Operand} {s : State} (h : OperandReadable o s) :
    ∃ v u, loadOperand o s = .ok v u := by
  cases o with
  | imm v => exact ⟨v, s, rfl⟩
  | mem m => exact memRead_of_readMapped h s

/-- A form whose rows all read an operand and use it in the same way. -/
theorem readsOperand_of_rows {form : Instr → Option (Byte × Bool × Operand)} {k : Reader}
    {rel : Byte → State → State → Prop} (hform : Rows form operandBytes (.read k))
    (hrel : ∀ {o s v u}, loadOperand o s = .ok v u → rel v u (k.apply s v u)) : ReadsOperand form rel := by
  intro i opc star o h
  have hrow := hform i opc star o h
  refine ⟨hrow.encodedBy, fun s hs => ?_, fun s m ho hn => ?_⟩
  · obtain ⟨v, u, hv⟩ := loadOperand_of_readable hs
    refine ⟨v, u, k.apply s v u, hv, ?_, hrel hv⟩
    rw [hrow.exec, Op.run, hv, Res.andThen_ok]
  · subst ho
    rw [hrow.exec, Op.run, loadOperand_mem, memRead_of_not_readMapped hn, Res.andThen_fault]

/-- Settles O28: the rows of each load read their operand and load one register. -/
theorem loadsLoad : Obligations.LoadsLoad := by
  obtain ⟨hlda, hldx, hldy, _⟩ := readRows
  exact ⟨readsOperand_of_rows hlda fun _ => ⟨rfl, flagsBecome_setZN _ _⟩,
    readsOperand_of_rows hldx fun _ => ⟨rfl, flagsBecome_setZN _ _⟩,
    readsOperand_of_rows hldy fun _ => ⟨rfl, flagsBecome_setZN _ _⟩⟩

/-- Bit 8 of the 9-bit sum is the carry (R160). -/
theorem addWithCarry_carry (a m : Byte) (c : Bool) :
    (addWithCarry a m c).carry = decide (256 ≤ a.toNat + m.toNat + c.toNat) := by
  have hc := c.toNat_le
  have hbit : (a.toNat + m.toNat + c.toNat) / 2 ^ 8 % 2 = 1 ↔ 256 ≤ a.toNat + m.toNat + c.toNat := by omega
  exact (Nat.testBit_eq_decide_div_mod_eq ..).trans (decide_eq_decide.mpr hbit)

/-- Settles O31: both read their operand and add it, SBC complemented. -/
theorem adcSbcCompute : Obligations.AdcSbcCompute := by
  obtain ⟨_, _, _, hadc, hsbc, _⟩ := readRows
  have hadds (m : Byte) (u : State) :
      AddsTo m u ((u.setA (adcSum u.a m u.p).result).setP (sumFlags (adcSum u.a m u.p) u.p)) := by
    refine ⟨rfl, ?_⟩
    rw [← addWithCarry_carry]
    exact flagsBecome_sumFlags _ _
  exact ⟨readsOperand_of_rows hadc fun _ => hadds _ _, readsOperand_of_rows hsbc fun _ => hadds _ _⟩

/-- Settles O33: the three logic operations differ in the bitwise operation alone. -/
theorem logicComputes : Obligations.LogicComputes := by
  obtain ⟨_, _, _, _, _, hand, hora, heor, _⟩ := readRows
  exact ⟨readsOperand_of_rows hand fun _ => ⟨rfl, flagsBecome_setZN _ _⟩,
    readsOperand_of_rows hora fun _ => ⟨rfl, flagsBecome_setZN _ _⟩,
    readsOperand_of_rows heor fun _ => ⟨rfl, flagsBecome_setZN _ _⟩⟩

/-- The register compared is the one before the operand read, which changes no register. -/
theorem compares_apply {o : Operand} {s u : State} {v : Byte} (h : loadOperand o s = .ok v u) (r : Reg) :
    Compares r.get v u (Reader.apply s v u (.compare r)) := by
  refine ⟨rfl, ?_⟩
  rw [(loadOperand_sameRegisters h).get r]
  exact flagsBecome_setZN_setC _ _ _

/-- Settles O34: the three compares differ in the register alone. -/
theorem comparesCompare : Obligations.ComparesCompare := by
  obtain ⟨_, _, _, _, _, _, _, _, hcmp, hcpx, hcpy⟩ := readRows
  exact ⟨readsOperand_of_rows hcmp fun h => compares_apply h .a,
    readsOperand_of_rows hcpx fun h => compares_apply h .x, readsOperand_of_rows hcpy fun h => compares_apply h .y⟩

/-- Settles O35: both rows read their operand over the bus and write three flags. -/
theorem bitTests : Obligations.BitTests := by
  obtain ⟨hbit, _⟩ := modeRows
  intro i opc star m h
  have hrow := hbit i opc star m h
  refine ⟨hrow.encodedBy, fun s hs => ?_, fun s hn => ?_⟩
  · obtain ⟨v, u, hv⟩ := memRead_of_readMapped hs s
    refine ⟨v, u, bitFlags u.a v u.p, hv, flagsBecome_bitFlags _ _ _, ?_⟩
    rw [hrow.exec, Op.run, loadOperand_mem, hv]
    rfl
  · rw [hrow.exec, Op.run, loadOperand_mem, memRead_of_not_readMapped hn, Res.andThen_fault]

/-! ### Operands that are stored -/

theorem memWrite_of_writeMapped {a : Addr} (h : WriteMapped a) (v : Byte) (s : State) :
    ∃ t, memWrite a v s = .next t := by
  rcases h with h | rfl
  · by_cases hram : a.toNat < 0x2000
    · exact ⟨_, memWrite_ram hram v s⟩
    · exact ⟨_, memWrite_ports (Nat.le_of_not_lt hram) h v s⟩
  · exact ⟨s, memWrite_sink v s⟩

theorem memWrite_of_not_writeMapped {a : Addr} (h : ¬WriteMapped a) (v : Byte) (s : State) :
    memWrite a v s = .fault (.busFault a) := by
  obtain ⟨h1, h2⟩ := not_or.mp h
  refine (memWrite_fault_iff ..).mpr ⟨?_, rfl⟩
  exact (Nat.lt_or_ge a.toNat 0x8000).imp_left fun hlt => ⟨Nat.le_of_not_lt h1, h2, hlt⟩

theorem stores_of_rows {form : Instr → Option (Byte × Bool × MemMode)} {r : Reg}
    (hform : Rows form modeBytes (.store r)) : Stores form r.get := by
  intro i opc star m h
  have hrow := hform i opc star m h
  have hexec (s : State) : exec i s = memWrite (effAddr m s) (r.get s) s := hrow.exec s
  refine ⟨hrow.encodedBy, fun s hs => ?_, fun s hn => ?_⟩
  · obtain ⟨t, ht⟩ := memWrite_of_writeMapped hs (r.get s) s
    exact ⟨t, ht, (hexec s).trans ht⟩
  · rw [hexec, memWrite_of_not_writeMapped hn]

/-- Settles O29: the three stores differ in the register alone. -/
theorem storesStore : Obligations.StoresStore := by
  obtain ⟨_, hsta, hstx, hsty, _⟩ := modeRows
  exact ⟨stores_of_rows hsta, stores_of_rows hstx, stores_of_rows hsty⟩

/-! ### Operands that are modified -/

/-- What a modifier makes of the byte and the carry, and which flags it writes. -/
def Computes (k : Modifier) (op : Byte → Bool → Byte) (w : Byte → Byte → Flag → Option Bool) : Prop :=
  ∀ v p, (k.byte v p).1 = op v (getFlag .C p) ∧ FlagsBecome p (k.byte v p).2 (w v (op v (getFlag .C p)))

theorem modifiesMemory_of_computes {i : Instr} {k : Modifier} {m : MemMode} {op : Byte → Bool → Byte}
    {w : Byte → Byte → Flag → Option Bool} (hk : Computes k op w)
    (hexec : ∀ s, exec i s = Op.run s (.modify k (.mem m))) : ModifiesMemory i m op w := by
  refine ⟨fun s hs => ?_, fun s hs => ?_⟩
  · obtain ⟨v, u, hv⟩ := memRead_of_readMapped (.inl hs) s
    obtain ⟨hres, hflags⟩ := hk v u.p
    obtain ⟨t, ht⟩ := memWrite_of_writeMapped (.inl hs) (k.byte v u.p).1 (u.setP (k.byte v u.p).2)
    refine ⟨v, u, (k.byte v u.p).2, t, hv, hflags, hres ▸ ht, ?_⟩
    rw [hexec, Op.run, modifyTarget, hv, Res.andThen_ok, ht]
  · rw [hexec, Op.run, modifyTarget]
    by_cases hc : (effAddr m s).toNat < 0x8000
    · rw [memRead_unmapped hs hc, Res.andThen_fault]
    · rw [memRead_cartridge (Nat.le_of_not_lt hc), Res.andThen_ok, memWrite_cartridge (Nat.le_of_not_lt hc)]

theorem modifies_of_rows {form : Instr → Option (Byte × Bool × Target)} {k : Modifier} {op : Byte → Bool → Byte}
    {w : Byte → Byte → Flag → Option Bool} (hform : Rows form targetBytes (.modify k)) (hk : Computes k op w) :
    Modifies form op w := by
  intro i opc star x h
  have hrow := hform i opc star x h
  refine ⟨hrow.encodedBy, fun hx s => ?_, fun m hx => ?_⟩
  · subst hx
    obtain ⟨hres, hflags⟩ := hk s.a s.p
    refine ⟨_, hflags, ?_⟩
    rw [hrow.exec, ← hres]
    rfl
  · subst hx
    exact modifiesMemory_of_computes hk hrow.exec

theorem modifiesMem_of_rows {form : Instr → Option (Byte × Bool × MemMode)} {k : Modifier}
    {op : Byte → Bool → Byte}
    {w : Byte → Byte → Flag → Option Bool} (hform : Rows form modeBytes (fun m => .modify k (.mem m)))
    (hk : Computes k op w) : ModifiesMem form op w := fun i opc star m h =>
  have hrow := hform i opc star m h
  ⟨hrow.encodedBy, modifiesMemory_of_computes hk hrow.exec⟩

theorem computes_inc : Computes .inc (fun v _ => BitVec.ofNat 8 (v.toNat + 1)) (fun _ r => znOf r) := by
  intro v p
  have hres : v + 1 = BitVec.ofNat 8 (v.toNat + 1) := by bv_omega
  beta_reduce
  rw [← hres]
  exact ⟨rfl, flagsBecome_setZN _ _⟩

theorem computes_dec : Computes .dec (fun v _ => BitVec.ofNat 8 (v.toNat + 255)) (fun _ r => znOf r) := by
  intro v p
  have hres : v - 1 = BitVec.ofNat 8 (v.toNat + 255) := by bv_omega
  beta_reduce
  rw [← hres]
  exact ⟨rfl, flagsBecome_setZN _ _⟩

/-- Settles O36: adding and subtracting one modulo 256. -/
theorem incDecMemory : Obligations.IncDecMemory := by
  obtain ⟨_, _, _, _, hinc, hdec⟩ := modeRows
  exact ⟨modifiesMem_of_rows hinc computes_inc, modifiesMem_of_rows hdec computes_dec⟩

/-! ### Shifts and rotates in integers -/

theorem getLsbD_seven (v : Byte) : v.getLsbD 7 = decide (128 ≤ v.toNat) := by
  rw [← msb_eq_decide]
  exact (BitVec.msb_eq_getLsbD_last v).symm

theorem getLsbD_zero (v : Byte) : v.getLsbD 0 = decide (v.toNat % 2 = 1) := Nat.testBit_zero ..

theorem toNat_carryBit (c : Bool) : ((BitVec.ofBool c).setWidth 8).toNat = c.toNat := by
  cases c <;> rfl

theorem shiftLeft_one_eq (v : Byte) : v <<< 1 = BitVec.ofNat 8 (2 * v.toNat) := by
  apply BitVec.eq_of_toNat_eq
  rw [BitVec.toNat_shiftLeft, Nat.shiftLeft_eq, BitVec.toNat_ofNat]
  omega

theorem ushiftRight_one_eq (v : Byte) : v >>> 1 = BitVec.ofNat 8 (v.toNat / 2) := by
  apply BitVec.eq_of_toNat_eq
  rw [BitVec.toNat_ushiftRight, Nat.shiftRight_eq_div_pow, BitVec.toNat_ofNat]
  omega

/-- The carry enters the bit that the left shift has cleared. -/
theorem shiftLeft_one_or_carry (v : Byte) (c : Bool) :
    v <<< 1 ||| (BitVec.ofBool c).setWidth 8 = BitVec.ofNat 8 (2 * v.toNat + c.toNat) := by
  apply BitVec.eq_of_toNat_eq
  have hc := c.toNat_le
  have heven : (v <<< 1).toNat = (v.toNat % 128) <<< 1 := by
    rw [shiftLeft_one_eq, BitVec.toNat_ofNat, Nat.shiftLeft_eq]
    omega
  rw [BitVec.toNat_or, heven, toNat_carryBit, ← Nat.shiftLeft_add_eq_or_of_lt (by omega), Nat.shiftLeft_eq,
    BitVec.toNat_ofNat]
  omega

/-- The carry enters the bit that the right shift has cleared. -/
theorem ushiftRight_one_or_carry (v : Byte) (c : Bool) :
    v >>> 1 ||| (BitVec.ofBool c).setWidth 8 <<< 7 = BitVec.ofNat 8 (v.toNat / 2 + 128 * c.toNat) := by
  apply BitVec.eq_of_toNat_eq
  have hc := c.toNat_le
  have hhigh : ((BitVec.ofBool c).setWidth 8 <<< 7).toNat = c.toNat <<< 7 := by cases c <;> rfl
  rw [BitVec.or_comm, BitVec.toNat_or, hhigh, ushiftRight_one_eq, BitVec.toNat_ofNat, Nat.mod_eq_of_lt (by omega),
    ← Nat.shiftLeft_add_eq_or_of_lt (by omega), Nat.shiftLeft_eq, BitVec.toNat_ofNat]
  omega

theorem flagsBecome_shift (v : Byte) (c : Bool) (p : Byte) :
    FlagsBecome p (setZN v (setFlag .C c p)) (shiftOf (some c) v) := by
  intro f
  rw [flagsBecome_setZN_setC v c p f]
  cases f <;> rfl

theorem computes_asl : Computes .asl (fun v _ => BitVec.ofNat 8 (2 * v.toNat))
    (fun v r => shiftOf (some (decide (128 ≤ v.toNat))) r) := by
  intro v p
  beta_reduce
  rw [← shiftLeft_one_eq, ← getLsbD_seven]
  exact ⟨rfl, flagsBecome_shift _ _ _⟩

theorem computes_lsr : Computes .lsr (fun v _ => BitVec.ofNat 8 (v.toNat / 2))
    (fun v r => shiftOf (some (decide (v.toNat % 2 = 1))) r) := by
  intro v p
  beta_reduce
  rw [← ushiftRight_one_eq, ← getLsbD_zero]
  exact ⟨rfl, flagsBecome_shift _ _ _⟩

theorem computes_rol : Computes .rol (fun v c => BitVec.ofNat 8 (2 * v.toNat + c.toNat))
    (fun v r => shiftOf (some (decide (128 ≤ v.toNat))) r) := by
  intro v p
  beta_reduce
  rw [← shiftLeft_one_or_carry, ← getLsbD_seven]
  exact ⟨rfl, flagsBecome_shift _ _ _⟩

theorem computes_ror : Computes .ror (fun v c => BitVec.ofNat 8 (v.toNat / 2 + 128 * c.toNat))
    (fun v r => shiftOf (some (decide (v.toNat % 2 = 1))) r) := by
  intro v p
  beta_reduce
  rw [← ushiftRight_one_or_carry, ← getLsbD_zero]
  exact ⟨rfl, flagsBecome_shift _ _ _⟩

/-- Settles O38: each shift computes the byte and the flags it is said to, on `A` and in memory. -/
theorem shiftsShift : Obligations.ShiftsShift := by
  obtain ⟨hasl, hlsr, hrol, hror⟩ := targetRows
  exact ⟨modifies_of_rows hasl computes_asl, modifies_of_rows hlsr computes_lsr, modifies_of_rows hrol computes_rol,
    modifies_of_rows hror computes_ror⟩

/-! ### Registers alone -/

theorem registerOp_of_row {i : Instr} {opc : Byte} {r : Reg} {v : State → Byte}
    (h : IsRow i opc false [] (.assign r v)) : RegisterOp i opc v (fun s => r.set (v s) s) :=
  ⟨h.encodedBy, fun s => ⟨setZN (v s) s.p, flagsBecome_setZN _ _, h.exec s⟩⟩

/-- Settles O30: each transfer but TXS assigns a register to another. -/
theorem transfersTransfer : Obligations.TransfersTransfer :=
  ⟨registerOp_of_row (r := .x) ⟨rfl, rfl, rfl, rfl⟩, registerOp_of_row (r := .y) ⟨rfl, rfl, rfl, rfl⟩,
    registerOp_of_row (r := .a) ⟨rfl, rfl, rfl, rfl⟩, registerOp_of_row (r := .a) ⟨rfl, rfl, rfl, rfl⟩,
    registerOp_of_row (r := .x) ⟨rfl, rfl, rfl, rfl⟩, encodedBy .txs, fun _ => rfl⟩

/-- Settles O37: each assigns the register its own value one further on or back. -/
theorem incDecRegister : Obligations.IncDecRegister :=
  ⟨registerOp_of_row (r := .x) ⟨rfl, rfl, rfl, rfl⟩, registerOp_of_row (r := .y) ⟨rfl, rfl, rfl, rfl⟩,
    registerOp_of_row (r := .x) ⟨rfl, rfl, rfl, rfl⟩, registerOp_of_row (r := .y) ⟨rfl, rfl, rfl, rfl⟩⟩

end Sys2Proof.Proofs.Operands
end

section
/-! Proofs of the family other: jumps and branches (O39 to O41, O43), the stack and the flags (O44 to O46), taking
an interrupt and returning from it (O47 to O49). -/

namespace Sys2Proof.Proofs.Control

open Sys2Proof Sys2Proof.Machine Sys2Proof.Forms Sys2Proof.Proofs.Operation Sys2Proof.Proofs.Iteration
  Sys2Proof.Proofs.Operands Sys2Proof.Proofs.Reset

/-! ### Jumps and branches -/

/-- Settles O39: both pointer bytes are read over the bus, and where the pointer cannot be read, neither can its
first byte. -/
theorem jumpsJump : Obligations.JumpsJump := by
  intro addr
  refine ⟨encodedBy (.jmpAbs addr), encodedBy (.jmpInd addr), fun s => ⟨rfl, fun h1 h2 => ?_, fun hn => ?_⟩⟩
  · obtain ⟨lo, s1, hlo⟩ := memRead_of_readMapped h1 s
    obtain ⟨hi, s2, hhi⟩ := memRead_of_readMapped h2 s1
    refine ⟨lo, s1, hi, s2, hlo, hhi, ?_⟩
    rw [exec, execJmpInd, indirectTarget, hlo, Res.bind_ok, hhi]
    rfl
  · rw [exec, execJmpInd, indirectTarget, memRead_of_not_readMapped hn, Res.bind_fault, Res.andThen_fault]

theorem sub_one_sub_one (b : Byte) : b - 1 - 1 = b - 2 := by bv_omega
theorem add_one_add_one (b : Byte) : b + 1 + 1 = b + 2 := by bv_omega
theorem sub_two_sub_one (b : Byte) : b - 2 - 1 = b - 3 := by bv_omega
theorem add_one_add_two (b : Byte) : b + 1 + 2 = b + 3 := by bv_omega

/-- Settles O40: two pushes of the address of the last byte. -/
theorem jsrPushesReturn : Obligations.JsrPushesReturn := by
  intro addr
  refine ⟨encodedBy (.jsr addr), fun s => ?_⟩
  rw [exec, execJsr, pushAddr_state, sub_one_sub_one]
  rfl

theorem execRts_state (s : State) :
    execRts s = .next
      { s with
        pc := pair (s.ram.read (0x100 + (s.sp + 2).toNat)) (s.ram.read (0x100 + (s.sp + 1).toNat)) + 1
        sp := s.sp + 2 } := by
  simp only [execRts, pullByte_eq, pullState, State.setSp, State.setPc, add_one_add_one]

/-- Settles O41: two pulls, and one more than the address pulled. -/
theorem rtsReturns : Obligations.RtsReturns := ⟨encodedBy .rts, execRts_state⟩

theorem branch_rows {i : Instr} {opc : Byte} {f : Flag} {b : Bool} {off : Byte}
    (h : branchForm i = some (opc, f, b, off)) : IsRow i opc false [off] (.branch f b off) := by
  unfold branchForm at h
  split at h <;> cases h <;> exact ⟨rfl, rfl, rfl, rfl⟩

/-- The target is the signed displacement on from `PC` (R111). -/
theorem toNat_branchTarget (off : Byte) (s : State) :
    ((branchTarget off s).toNat : Int) = ((s.pc.toNat : Int) + off.toInt) % 0x10000 := by
  have hsext : (sext8 off).toInt = off.toInt := BitVec.toInt_signExtend_of_le (by decide)
  have hcond := BitVec.toInt_eq_toNat_cond (sext8 off)
  rw [branchTarget, BitVec.toNat_add, ← hsext, hcond]
  split <;> omega

theorem branchIf_eq (f : Flag) (b : Bool) (off : Byte) (s : State) :
    branchIf (bif b then getFlag f s.p else !getFlag f s.p) off s =
      .next (if getFlag f s.p = b then { s with pc := branchTarget off s } else s) := by
  cases b <;> cases getFlag f s.p <;> rfl

/-- Settles O43: each row tests one flag for one value. -/
theorem branchesBranch : Obligations.BranchesBranch := by
  intro i opc f b off h
  have hrow := branch_rows h
  refine ⟨hrow.encodedBy, fun s => ⟨branchTarget off s, toNat_branchTarget off s, ?_⟩⟩
  rw [hrow.exec]
  exact branchIf_eq f b off s

/-! ### The stack and the flags -/

/-- Settles O44: a push is a write and a decrement, a pull an increment and a read. -/
theorem stackInstructions : Obligations.StackInstructions := by
  refine ⟨encodedBy .pha, encodedBy .pla, encodedBy .php, fun s => ⟨?_, ?_, setZN (pullByte s) s.p, ?_, ?_⟩⟩
  · exact congrArg Host.Outcome.next (push_state s.a s)
  · exact congrArg Host.Outcome.next (push_state s.p s)
  · rw [pullByte_eq]
    exact flagsBecome_setZN _ _
  · rw [exec, execPla, pullByte_eq]
    rfl

theorem flagsBecome_pulledFlags (v p : Byte) : FlagsBecome p (pulledFlags v p) (pulledOf v) := by
  intro f
  rw [getFlag_pulledFlags]
  cases f <;> rfl

/-- Settles O45: both pull the flags first. -/
theorem plpRtiRestore : Obligations.PlpRtiRestore := by
  refine ⟨encodedBy .plp, encodedBy .rti, fun s => ⟨pulledFlags (pullByte s) s.p, ?_, ?_, ?_⟩⟩
  · rw [pullByte_eq]
    exact flagsBecome_pulledFlags _ _
  · rfl
  · rw [exec, execRti, returnFromInterrupt_state, add_one_add_one, add_one_add_two, add_one_add_one, pullByte_eq]

theorem flag_rows {i : Instr} {opc : Byte} {f : Flag} {b : Bool} (h : flagForm i = some (opc, f, b)) :
    IsRow i opc false [] (.flag f b) := by
  unfold flagForm at h
  split at h <;> cases h <;> exact ⟨rfl, rfl, rfl, rfl⟩

theorem flagsBecome_setFlag (g : Flag) (b : Bool) (p : Byte) : FlagsBecome p (setFlag g b p) (oneOf g b) := by
  intro f
  rw [getFlag_setFlag, oneOf]
  split <;> rfl

/-- Settles O46: each row writes one flag. -/
theorem flagInstructionsAndNop : Obligations.FlagInstructionsAndNop := by
  refine ⟨fun i opc f b h => ?_, encodedBy .nop, fun s => rfl⟩
  have hrow := flag_rows h
  exact ⟨hrow.encodedBy, fun s => ⟨setFlag f b s.p, flagsBecome_setFlag f b s.p, hrow.exec s⟩⟩

/-! ### Interrupts -/

/-- Taking an interrupt, with each stack byte at its address. -/
theorem interruptEntry_writes (ret : Addr) (pushed : Byte) (vec : Addr) (s : State) :
    interruptEntry ret pushed vec s =
      { s with
        pc := pair (romByte s.cart (vec + 1)) (romByte s.cart vec), p := setFlag .I true s.p, sp := s.sp - 3
        ram := ((s.ram.write (0x100 + s.sp.toNat) (hiByte ret)).write (0x100 + (s.sp - 1).toNat)
          (loByte ret)).write (0x100 + (s.sp - 2).toNat) pushed } := by
  rw [interruptEntry_state, push_state, push_state, push_state]
  simp only [sub_one_sub_one, sub_two_sub_one, readVector]

/-- BRK pushes the flags with B and U set (R232, decision D17). -/
theorem flagsBecome_or_brkMask (p : Byte) :
    FlagsBecome p (p ||| 0x30#8) (fun f => if f = .B ∨ f = .U then some true else none) := by
  intro f
  rw [getFlag_or]
  cases f <;> simp [getFlag, Flag.bit]

/-- The NMI pushes the flags with B clear and U set (R331, decision D15). -/
theorem flagsBecome_nmiMask (p : Byte) :
    FlagsBecome p ((p &&& 0xEF#8) ||| 0x20#8)
      (fun f => if f = .B then some false else if f = .U then some true else none) := by
  intro f
  cases f <;> simp [getFlag, Flag.bit]

/-- Settles O47: BRK takes an interrupt with the address after the next byte; both vector bytes lie in the cartridge
window. -/
theorem brkTakesInterrupt : Obligations.BrkTakesInterrupt := by
  refine ⟨encodedBy .brk, fun s => ⟨setFlag .I true s.p, s.p ||| 0x30#8, romByte s.cart 0xFFFE#16,
    romByte s.cart 0xFFFF#16, flagsBecome_setFlag .I true s.p, flagsBecome_or_brkMask s.p,
    memRead_cartridge (by decide) s, memRead_cartridge (by decide) s, ?_⟩⟩
  exact congrArg Host.Outcome.next (interruptEntry_writes (s.pc + 1) (s.p ||| 0x30#8) 0xFFFE#16 s)

/-- Settles O48: the NMI entry takes an interrupt with `PC` as it is. -/
theorem nmiEntrySavesState : Obligations.NmiEntrySavesState := fun s =>
  ⟨setFlag .I true s.p, (s.p &&& 0xEF#8) ||| 0x20#8, romByte s.cart 0xFFFA#16, romByte s.cart 0xFFFB#16,
    flagsBecome_setFlag .I true s.p, flagsBecome_nmiMask s.p, memRead_cartridge (by decide) s,
    memRead_cartridge (by decide) s, interruptEntry_writes s.pc _ 0xFFFA#16 s⟩

/-- A return pulls what the entry pushed: the three stack bytes differ, and `SP` comes back to where it was. -/
theorem returnFromInterrupt_interruptEntry (ret : Addr) (pushed : Byte) (vec : Addr) (s : State) :
    returnFromInterrupt (interruptEntry ret pushed vec s) =
      { s with
        pc := ret, p := pulledFlags pushed (setFlag .I true s.p), ram := (interruptEntry ret pushed vec s).ram } := by
  have h1 : s.sp - 3 + 1 = s.sp - 2 := by bv_omega
  have h2 : s.sp - 2 + 1 = s.sp - 1 := by bv_omega
  have h3 : s.sp - 1 + 1 = s.sp := by bv_omega
  have h12 : 0x100 + (s.sp - 1).toNat ≠ 0x100 + (s.sp - 2).toNat := by bv_omega
  have h02 : 0x100 + s.sp.toNat ≠ 0x100 + (s.sp - 2).toNat := by bv_omega
  have h01 : 0x100 + s.sp.toNat ≠ 0x100 + (s.sp - 1).toNat := by bv_omega
  rw [returnFromInterrupt_state, interruptEntry_writes]
  simp only [h1, h2, h3, Memory.read_write_same, Memory.read_write_ne _ _ h12, Memory.read_write_ne _ _ h02,
    Memory.read_write_ne _ _ h01, pair_hiByte_loByte]

/-- The flags pulled are those before the entry: B and U are kept, and the entry has pushed the other six. -/
theorem pulledFlags_of_pushed {p pushed : Byte} {w : Flag → Option Bool} (h : FlagsBecome p pushed w)
    (hw : ∀ f, f ≠ .B → f ≠ .U → w f = none) : pulledFlags pushed (setFlag .I true p) = p := by
  apply eq_of_getFlag_eq
  intro f
  rw [getFlag_pulledFlags]
  split
  · next hf => exact getFlag_setFlag_ne (by rintro rfl; simp at hf) true p
  · next hf =>
    obtain ⟨hB, hU⟩ := not_or.mp hf
    rw [h f, hw f hB hU, Option.getD_none]

/-- Settles O49: the return pulls the address that the entry pushed, and the six flags. -/
theorem rtiUndoesEntry : Obligations.RtiUndoesEntry := by
  intro s
  have hbrk := pulledFlags_of_pushed (flagsBecome_or_brkMask s.p) (by intro f hB hU; simp [hB, hU])
  have hnmi := pulledFlags_of_pushed (flagsBecome_nmiMask s.p) (by intro f hB hU; simp [hB, hU])
  refine ⟨⟨_, rfl, ?_⟩, ?_⟩
  · rw [exec, execRti, returnFromInterrupt_interruptEntry, hbrk]
  · rw [exec, execRti, nmiEntry, returnFromInterrupt_interruptEntry, hnmi]

end Sys2Proof.Proofs.Control
end

section
/-! Proofs of the family other: the overflow in integers (O32), and the round trips of the source (O42). -/

namespace Sys2Proof.Proofs.Arithmetic

open Sys2Proof Sys2Proof.Machine Sys2Proof.Forms Sys2Proof.Proofs.Operands Sys2Proof.Proofs.Control

/-! ### Overflow -/

theorem and_0x80_ne_zero (x : Byte) : ((x &&& 0x80#8) != 0) = x.msb := by
  have h := Nat.and_two_pow x.toNat 7
  have h80 : (x &&& 0x80#8).toNat = (x.toNat.testBit 7).toNat * 2 ^ 7 := h
  rw [BitVec.msb_eq_getLsbD_last]
  show _ = x.toNat.testBit 7
  rw [Bool.eq_iff_iff, bne_iff_ne, ne_eq, ← BitVec.toNat_inj, h80]
  cases x.toNat.testBit 7 <;> simp

theorem toNat_xor_0xFF (m : Byte) : (m ^^^ 0xFF#8).toNat = 255 - m.toNat := by
  rw [show 0xFF#8 = BitVec.allOnes 8 from rfl, BitVec.xor_allOnes, BitVec.toNat_not]

/-- V in signs: both operands differ from the result in bit 7. -/
theorem addWithCarry_overflow_msb (a m : Byte) (c : Bool) :
    (addWithCarry a m c).overflow =
      ((a.msb ^^ (addWithCarry a m c).result.msb) && (m.msb ^^ (addWithCarry a m c).result.msb)) := by
  rw [← BitVec.msb_xor, ← BitVec.msb_xor, ← BitVec.msb_and]
  exact and_0x80_ne_zero _

/-- R175: the sign rule of R160 says that the signed sum does not fit in a byte. -/
theorem addWithCarry_overflow (a m : Byte) (c : Bool) :
    (addWithCarry a m c).overflow = true ↔
      a.toInt + m.toInt + c.toNat < -128 ∨ 127 < a.toInt + m.toInt + c.toNat := by
  have hc := c.toNat_le
  have hr : (addWithCarry a m c).result.toNat = (a.toNat + m.toNat + c.toNat) % 256 := BitVec.toNat_ofNat ..
  rw [addWithCarry_overflow_msb, msb_eq_decide, msb_eq_decide, msb_eq_decide, hr, Bool.and_eq_true,
    bne_iff_ne, bne_iff_ne, ne_eq, ne_eq, decide_eq_decide, decide_eq_decide, BitVec.toInt_eq_toNat_cond,
    BitVec.toInt_eq_toNat_cond]
  split <;> split <;> omega

/-- Settles O32: SBC adds the complement, which is 255 less the byte and, signed, -1 less the byte. -/
theorem overflowIsSignedOverflow : Obligations.OverflowIsSignedOverflow := by
  intro a m p
  have hc := (getFlag .C p).toNat_le
  have hnat := toNat_xor_0xFF m
  have hint : (m ^^^ 0xFF#8).toInt = -1 - m.toInt := by
    rw [BitVec.toInt_eq_toNat_cond, BitVec.toInt_eq_toNat_cond, hnat]
    split <;> split <;> omega
  have hr : (sbcSum a m p).result.toNat = (a.toNat + (m ^^^ 0xFF#8).toNat + (getFlag .C p).toNat) % 256 :=
    BitVec.toNat_ofNat ..
  refine ⟨addWithCarry_overflow a m _, ?_, ?_, ?_⟩
  · rw [sbcSum, addWithCarry_overflow, hint]
    omega
  · rw [sbcSum, addWithCarry_carry, hnat, decide_eq_true_iff]
    omega
  · rw [hr, hnat]
    omega

/-! ### Round trips -/

theorem pulledFlags_self (p : Byte) : pulledFlags p p = p := by
  apply eq_of_getFlag_eq
  intro f
  rw [getFlag_pulledFlags, ite_self]

/-- JSR, then RTS: the two stack bytes differ, and the address that JSR pushed is one less than `PC`. -/
theorem execRts_execJsr (addr : Addr) (s : State) :
    ∃ t, exec (.jsr addr) s = .next t ∧ exec .rts t = .next { s with ram := t.ram } := by
  have h1 : s.sp - 1 - 1 + 1 = s.sp - 1 := by bv_omega
  have h2 : s.sp - 1 - 1 + 2 = s.sp := by bv_omega
  have hne : 0x100 + s.sp.toNat ≠ 0x100 + (s.sp - 1).toNat := by bv_omega
  have hpc : s.pc - 1 + 1 = s.pc := by bv_omega
  refine ⟨_, rfl, ?_⟩
  rw [exec, execRts_state, pushAddr_state]
  simp only [State.setPc, h1, h2, Memory.read_write_same, Memory.read_write_ne _ _ hne, pair_hiByte_loByte, hpc]

/-- The state after a pull that follows a push. -/
theorem pullState_push (v : Byte) (s : State) :
    pullState (push v s) = { s with ram := s.ram.write (0x100 + s.sp.toNat) v } := by
  have hsp : s.sp - 1 + 1 = s.sp := by bv_omega
  rw [pullState, push_state, State.setSp, hsp]

/-- Subtracting what has been added gives the byte back. -/
theorem sub_add_cancel_byte (a b : Byte) :
    (addWithCarry (addWithCarry a b false).result (b ^^^ 0xFF#8) true).result = a := by
  have hnat := toNat_xor_0xFF b
  apply BitVec.eq_of_toNat_eq
  simp only [addWithCarry, BitVec.toNat_ofNat, hnat, Bool.toNat_false, Bool.toNat_true]
  omega

theorem execSbc_execAdc (b : Byte) (s t : State) (hc : getFlag .C s.p = false) (h : exec (.adcImm b) s = .next t) :
    ∃ u, exec (.sbcImm b) { t with p := setFlag .C true t.p } = .next u ∧ u.a = s.a := by
  cases h
  refine ⟨_, rfl, ?_⟩
  show (addWithCarry (addWithCarry s.a b (getFlag .C s.p)).result (b ^^^ 0xFF#8)
    (getFlag .C (setFlag .C true _))).result = s.a
  rw [hc, getFlag_setFlag_same, sub_add_cancel_byte]

/-- The nine bits that ROL rotates: those of the byte, and the carry as bit 8. -/
def ringBit (x : Byte × Byte) (j : Nat) : Bool := if j = 8 then getFlag .C x.2 else x.1.getLsbD j

def rolStep (x : Byte × Byte) : Byte × Byte := rolByte x.1 x.2

theorem getFlag_C_rolByte (v p : Byte) : getFlag .C (rolByte v p).2 = v.getLsbD 7 := by
  simp [rolByte, getFlag_setZN]

theorem getLsbD_rolByte_zero (v p : Byte) : (rolByte v p).1.getLsbD 0 = getFlag .C p := by
  simp [rolByte]

theorem getLsbD_rolByte_succ (v p : Byte) {i : Nat} (hi : i < 7) :
    (rolByte v p).1.getLsbD (i + 1) = v.getLsbD i := by
  have h8 : i + 1 < 8 := by omega
  rw [BitVec.getLsbD_eq_getElem (show i < 8 by omega)]
  simp [rolByte, h8]

/-- One ROL moves each of the nine bits one place up, the last to the first. -/
theorem ringBit_rolStep (x : Byte × Byte) {j : Nat} (hj : j < 9) :
    ringBit (rolStep x) j = ringBit x ((j + 8) % 9) := by
  rcases j with _ | i
  · exact getLsbD_rolByte_zero x.1 x.2
  · rw [show (i + 1 + 8) % 9 = i by omega]
    by_cases h7 : i = 7
    · subst h7
      exact getFlag_C_rolByte x.1 x.2
    · rw [ringBit, ringBit, if_neg (by omega), if_neg (by omega)]
      exact getLsbD_rolByte_succ x.1 x.2 (by omega)

theorem ringBit_iterate_rolStep (x : Byte × Byte) (k : Nat) {j : Nat} (hj : j < 9) :
    ringBit (rolStep^[k] x) j = ringBit x ((j + 8 * k) % 9) := by
  induction k generalizing j with
  | zero => rw [Nat.mul_zero, Nat.add_zero, Nat.mod_eq_of_lt hj]; rfl
  | succ k ih =>
    rw [Function.iterate_succ_apply', ringBit_rolStep _ hj, ih (Nat.mod_lt _ (by decide))]
    congr 1
    omega

/-- Nine ROLs bring each of the nine bits back. -/
theorem nine_rols (v p : Byte) :
    (rolStep^[9] (v, p)).1 = v ∧ getFlag .C (rolStep^[9] (v, p)).2 = getFlag .C p := by
  have hring {j : Nat} (hj : j < 9) : ringBit (rolStep^[9] (v, p)) j = ringBit (v, p) j := by
    rw [ringBit_iterate_rolStep _ _ hj]
    congr 1
    omega
  refine ⟨BitVec.eq_of_getLsbD_eq fun i hi => ?_, hring (j := 8) (by decide)⟩
  have h := hring (j := i) (by omega)
  rwa [ringBit, ringBit, if_neg (by omega), if_neg (by omega)] at h

/-- Settles O42, each round trip by its own lemma. -/
theorem roundTrips : Obligations.RoundTrips := by
  refine ⟨execRts_execJsr, fun s => ⟨_, rfl, ?_⟩, fun s => ⟨_, _, rfl, rfl, ?_, ?_⟩, execSbc_execAdc, nine_rols⟩
  · show Host.Outcome.next ((pullState (push s.p s)).setP (pulledFlags (pullByte (push s.p s)) (push s.p s).p)) = _
    rw [pullState_push, pullByte_push, push_state]
    simp only [State.setP, pulledFlags_self]
  · exact pullByte_push s.a s
  · show (pullState (push s.a s)).sp = s.sp
    rw [pullState_push]

end Sys2Proof.Proofs.Arithmetic
end

section
/-! Proofs of the family other: the PPU's dots (O54 to O56) and its ports (O57 to O59). -/

namespace Sys2Proof.Proofs.Ppu

open Sys2Proof Sys2Proof.Machine Sys2Proof.Forms Sys2Proof.Proofs.Invariant

/-! ### Dots from power-on -/

theorem dotsFrom_succ (c : Byte) (n : Nat) : dotsFrom c (n + 1) = advanceDot (dotsFrom c n) :=
  Function.iterate_succ_apply' ..

theorem dotsFrom_ctrl (c : Byte) (n : Nat) : (dotsFrom c n).ctrl = c := by
  induction n with
  | zero => rfl
  | succ n ih => rw [dotsFrom_succ, advanceDot_state, ih]

theorem dotsFrom_cycle (c : Byte) (n : Nat) : (dotsFrom c n).cycle = n := by
  induction n with
  | zero => rfl
  | succ n ih => rw [dotsFrom_succ, advanceDot_cycle, ih]

theorem dotsFrom_sound (c : Byte) (n : Nat) : (dotsFrom c n).Sound := by
  induction n with
  | zero =>
    obtain ⟨_, _, hpowerOn, _⟩ := resetMeetsInvariant
    exact ppuSound_congr hpowerOn rfl rfl rfl rfl
  | succ n ih =>
    rw [dotsFrom_succ]
    exact advanceDot_sound ih

/-- The place in the frame is the count of dots modulo a frame. -/
theorem dotsFrom_place (c : Byte) (n : Nat) :
    (dotsFrom c n).y = n % 88740 / 340 ∧ (dotsFrom c n).x = n % 88740 % 340 := by
  obtain ⟨hx, _, _, hplace⟩ := dotsFrom_sound c n
  rw [dotsFrom_cycle] at hplace
  simp only [Config.dotsPerLine, Config.linesPerFrame] at hx hplace
  omega

/-- Settles O54: the vertical blank begins 241 lines of 340 dots into the frame. -/
theorem frameGeometry : Obligations.FrameGeometry := by
  intro c n
  obtain ⟨hy, hx⟩ := dotsFrom_place c n
  obtain ⟨_, _, hstatus, _⟩ := dotsFrom_sound c n
  have hvblank : 241 ≤ n % 88740 / 340 ↔ 81940 ≤ n % 88740 := by omega
  refine ⟨dotsFrom_cycle c n, hy, hx, ?_⟩
  rw [hstatus, hy]
  simp only [Config.vblankLine, hvblank]

theorem nmiCondition_iff (q : Ppu) :
    nmiCondition q = true ↔ q.y = 241 ∧ q.x = 1 ∧ q.ctrl.getLsbD 7 = true ∧ 29658 < q.cycle := by
  simp only [nmiCondition, Bool.and_eq_true, beq_iff_eq, decide_eq_true_eq, and_assoc]

/-- Settles O55: the NMI dot is the second of the vertical blank, which lies past the warm-up in the first frame. -/
theorem nmiOncePerFrame : Obligations.NmiOncePerFrame := by
  intro c n
  obtain ⟨hy, hx⟩ := dotsFrom_place c n
  have hplace : n % 88740 / 340 = 241 ∧ n % 88740 % 340 = 1 ↔ n % 88740 = 81941 := by omega
  have hwarm : n % 88740 = 81941 → 29658 < n := by omega
  rw [Bool.eq_iff_iff, nmiCondition_iff, dotsFrom_ctrl, dotsFrom_cycle, hy, hx, Bool.and_eq_true, decide_eq_true_eq]
  tauto

/-! ### One tick -/

/-- The status register after one dot: vblank is cleared as the line becomes 0 and set as it becomes 241. -/
def statusAfterDot (q : Ppu) : Byte :=
  if q.x = 339 ∧ q.y = 260 then q.status &&& 0x7F#8
  else if q.x = 339 ∧ q.y = 240 then q.status ||| 0x80#8
  else q.status

theorem advanceDot_eq {q : Ppu} (hy : q.y < 261) :
    advanceDot q =
      { q with
        cycle := q.cycle + 1, x := if q.x = 339 then 0 else q.x + 1
        y := if q.x = 339 then (q.y + 1) % 261 else q.y, status := statusAfterDot q } := by
  by_cases he : q.x = 339
  · rw [advanceDot_lineEnd (by rw [he])]
    by_cases h260 : q.y = 260
    · simp [nextLine, statusAfterDot, he, h260]
    · have hmod : (q.y + 1) % 261 = q.y + 1 := Nat.mod_eq_of_lt (by omega)
      have hlast : q.y + 1 ≠ Config.linesPerFrame := by simp only [Config.linesPerFrame]; omega
      have hvblank : q.y + 1 = Config.vblankLine ↔ q.y = 240 := by simp only [Config.vblankLine]; omega
      simp [nextLine, statusAfterDot, he, h260, hmod, hlast, hvblank]
  · rw [advanceDot_inside (by simp only [Config.dotsPerLine]; omega)]
    simp [statusAfterDot, he]

theorem statusAfterDot_vblank (q : Ppu) :
    (statusAfterDot q).getLsbD 7 =
      if q.x = 339 ∧ q.y = 260 then false else if q.x = 339 ∧ q.y = 240 then true else q.status.getLsbD 7 := by
  unfold statusAfterDot
  split
  · simp
  · split <;> simp

/-- A dot touches no other bit of the status register. -/
theorem statusAfterDot_rest (q : Ppu) : statusAfterDot q &&& 0x7F#8 = q.status &&& 0x7F#8 := by
  unfold statusAfterDot
  split
  · rw [BitVec.and_assoc]; rfl
  · split
    · rw [BitVec.and_comm, BitVec.and_or_distrib_left]
      exact BitVec.or_zero.trans (BitVec.and_comm ..)
    · rfl

/-- The NMI dot is reached from the first dot of its line. -/
theorem nmiCondition_advanceDot {q : Ppu} (hy : q.y < 261) :
    nmiCondition (advanceDot q) = true ↔
      q.y = 241 ∧ q.x = 0 ∧ q.ctrl.getLsbD 7 = true ∧ 29658 < q.cycle + 1 := by
  rw [nmiCondition_iff, advanceDot_eq hy]
  by_cases he : q.x = 339 <;> simp [he]

/-- Settles O56: one dot, then the latch. -/
theorem tickMovesOneDot : Obligations.TickMovesOneDot := by
  intro s _ hy
  refine ⟨statusAfterDot s.ppu, ?_, statusAfterDot_vblank s.ppu, statusAfterDot_rest s.ppu, ?_⟩
  · rw [← advanceDot_eq hy]
    exact tick_state s
  · rw [tick_state, Bool.or_eq_true, nmiCondition_advanceDot hy]

/-! ### Ports -/

/-- Settles O57, a port at a time; the write-only ports give a draw. -/
theorem portReads : Obligations.PortReads := by
  intro s
  refine ⟨?_, rfl, rfl, ?_⟩
  · rw [memRead_ports (by decide) (by decide)]
    cases h : s.statusReadClearsW <;> simp [portOf, portRead, portReadEffect, h]
  · intro a ha
    fin_cases ha <;> exact ⟨_, rfl⟩

/-- Settles O58, a port at a time. -/
theorem portWrites : Obligations.PortWrites := by
  intro v s
  refine ⟨rfl, rfl, rfl, rfl, rfl, rfl, rfl, rfl⟩

/-- Two writes to the address port, with the toggle 0, set the latch. -/
theorem memWrite_address_twice (hi lo : Byte) {s : State} (hw : s.ppu.w = false) :
    ∃ s1, memWrite 0x2006#16 hi s = .next s1 ∧
      memWrite 0x2006#16 lo s1 = .next { s with ppu := { s.ppu with v := pair hi lo } } := by
  refine ⟨{ s with ppu := { s.ppu with v := pair hi (loByte s.ppu.v), w := true } }, ?_, ?_⟩
  · obtain ⟨_, _, _, _, _, _, haddress, _⟩ := portWrites hi s
    rw [haddress, hw]
    rfl
  · obtain ⟨_, _, _, _, _, _, haddress, _⟩ :=
      portWrites lo { s with ppu := { s.ppu with v := pair hi (loByte s.ppu.v), w := true } }
    rw [haddress, if_pos rfl, hiByte_pair, ← hw]

/-- Settles O59: the second setting of the address selects the byte that was written. -/
theorem vramWriteThenRead : Obligations.VramWriteThenRead := by
  intro hi lo v s hw
  obtain ⟨s1, h1, h2⟩ := memWrite_address_twice hi lo hw
  obtain ⟨_, _, _, _, _, _, _, h3⟩ := portWrites v { s with ppu := { s.ppu with v := pair hi lo } }
  obtain ⟨s4, h4, h5⟩ := memWrite_address_twice hi lo (s := { s with ppu := { s.ppu with
    vram := s.ppu.vram.write ((pair hi lo).toNat % 0x4000) v
    v := pair hi lo + if s.ppu.ctrl.getLsbD 2 then 32 else 1 } }) hw
  obtain ⟨_, _, h6, _⟩ := portReads { s with ppu := { s.ppu with
    vram := s.ppu.vram.write ((pair hi lo).toNat % 0x4000) v, v := pair hi lo } }
  rw [Memory.read_write_same] at h6
  exact ⟨_, _, _, _, _, _, h1, h2, rfl, hw, h3, h4, h5, h6⟩

end Sys2Proof.Proofs.Ppu
end

section
/-! Proofs of the family other: OAM DMA (O60). -/

namespace Sys2Proof.Proofs.Dma

open Sys2Proof Sys2Proof.Machine Sys2Proof.Forms Sys2Proof.Proofs.Bus

/-! ### The transfers -/

/-- The address that transfer `k` reads. -/
def dmaAddr (page : Byte) (k : Nat) : Addr := pair page 0 + BitVec.ofNat 16 k

theorem toNat_dmaAddr (page : Byte) {k : Nat} (hk : k < 256) : (dmaAddr page k).toNat = page.toNat * 256 + k := by
  have hp : (pair page 0).toNat = page.toNat * 256 := (toNat_pair page 0).trans (Nat.add_zero _)
  rw [dmaAddr, BitVec.toNat_add, BitVec.toNat_ofNat, hp]
  omega

theorem dmaAddr_eq_pair (page : Byte) {k : Nat} (hk : k < 256) : dmaAddr page k = pair page (BitVec.ofNat 8 k) := by
  apply BitVec.eq_of_toNat_eq
  rw [toNat_dmaAddr page hk, toNat_pair, BitVec.toNat_ofNat, Nat.mod_eq_of_lt hk]

/-- OAM after the first `k` transfers, of the bytes `b`. -/
def oamAfter (s : State) (b : Nat → Byte) : Nat → Memory
  | 0 => s.ppu.oam
  | k + 1 => (oamAfter s b k).write (oamEntry s k) (b k)

/-- Different transfers write different entries. -/
theorem oamEntry_ne (s : State) {i j : Nat} (hi : i < 256) (hj : j < 256) (h : i ≠ j) :
    oamEntry s i ≠ oamEntry s j := by
  unfold oamEntry
  omega

theorem read_oamAfter_of_lt (s : State) (b : Nat → Byte) {j n : Nat} (hj : j < n) (hn : n ≤ 256) :
    (oamAfter s b n).read (oamEntry s j) = b j := by
  induction n with
  | zero => omega
  | succ n ih =>
    by_cases h : j = n
    · rw [h, oamAfter, Memory.read_write_same]
    · rw [oamAfter, Memory.read_write_ne _ _ (oamEntry_ne s (by omega) (by omega) h), ih (by omega) (by omega)]

theorem read_oamAfter_of_le (s : State) (b : Nat → Byte) {j n : Nat} (hj : n ≤ j) (h256 : j < 256) :
    (oamAfter s b n).read (oamEntry s j) = s.ppu.oam.read (oamEntry s j) := by
  induction n with
  | zero => rfl
  | succ n ih =>
    rw [oamAfter, Memory.read_write_ne _ _ (oamEntry_ne s (by omega) (by omega) (by omega)), ih (by omega)]

/-- A DMA goes through the states `S`, when each transfer reads a byte and leads from one to the next. -/
theorem oamDmaFrom_of_steps {page : Byte} {S : Nat → State} {m : Nat}
    (hS : ∀ k < m, ∃ b u, memRead (dmaAddr page k) (S k) = .ok b u ∧
      u.setPpu { u.ppu with oam := u.ppu.oam.write (oamEntry u k) b } = S (k + 1))
    {n i : Nat} (h : i + n ≤ m) : oamDmaFrom n i page (S i) = .ok () (S (i + n)) := by
  induction n generalizing i with
  | zero => rfl
  | succ n ih =>
    obtain ⟨b, u, hread, hwrite⟩ := hS i (by omega)
    have hrest := ih (i := i + 1) (by omega)
    rw [← hwrite, Nat.add_assoc, Nat.add_comm 1] at hrest
    rw [oamDmaFrom_succ]
    exact (congrArg (Res.bind · _) hread).trans hrest

theorem oamDma_of_steps {page : Byte} {s : State} {S : Nat → State} (h0 : S 0 = s) (hh : s.halted = none)
    (hS : ∀ k < 255, ∃ b u, memRead (dmaAddr page k) (S k) = .ok b u ∧
      u.setPpu { u.ppu with oam := u.ppu.oam.write (oamEntry u k) b } = S (k + 1)) :
    hostAct (.oamDma page) s = .next (S 255) := by
  subst h0
  exact hostAct_oamDma hh (oamDmaFrom_of_steps hS (by decide))

/-! ### From memory -/

/-- A DMA whose reads have no effect and do not depend on OAM changes OAM only. -/
theorem oamDma_of_pure_reads {page : Byte} {s : State} {b : Nat → Byte} (hh : s.halted = none)
    (hb : ∀ k < 255, ∀ m, memRead (dmaAddr page k) { s with ppu := { s.ppu with oam := m } } =
      .ok (b k) { s with ppu := { s.ppu with oam := m } }) :
    hostAct (.oamDma page) s = .next { s with ppu := { s.ppu with oam := oamAfter s b 255 } } :=
  oamDma_of_steps (S := fun k => { s with ppu := { s.ppu with oam := oamAfter s b k } }) rfl hh
    fun k hk => ⟨b k, _, hb k hk _, rfl⟩

/-! ### From the ports -/

/-- The transfers that read a write-only port. -/
def isDraw (k : Nat) : Bool := decide (k % 8 ≠ 2 ∧ k % 8 ≠ 4 ∧ k % 8 ≠ 7)

/-- The state after the first `k` transfers from a page of ports, with OAM `m`. -/
def portsState (s : State) (m : Memory) (k : Nat) : State :=
  { s with
    ppu :=
      { s.ppu with
        oam := m, v := s.ppu.v + BitVec.ofNat 16 (k / 8) * vramInc s.ppu
        w := s.ppu.w && !(s.statusReadClearsW && decide (2 < k)) }
    draws := s.draws + Nat.count (isDraw ·) k }

/-- The byte that transfer `k` reads from a page of ports. -/
def portsByte (s : State) (k : Nat) : Byte :=
  if k % 8 = 2 then s.ppu.status
  else if k % 8 = 4 then Config.freeByte s.draws
  else if k % 8 = 7 then s.ppu.vram.read ((s.ppu.v + BitVec.ofNat 16 (k / 8) * vramInc s.ppu).toNat % 0x4000)
  else Config.freeByte (s.draws + Nat.count (isDraw ·) k)

/-- The port that transfer `k` reads from a page of ports. -/
theorem portOf_dmaAddr_cases (page : Byte) {k : Nat} (hk : k < 256) :
    (k % 8 = 2 ∧ portOf (dmaAddr page k) = .status) ∨ (k % 8 = 4 ∧ portOf (dmaAddr page k) = .oamData) ∨
    (k % 8 = 7 ∧ portOf (dmaAddr page k) = .data) ∨
    (isDraw k = true ∧ ∀ t, portRead (portOf (dmaAddr page k)) t =
      (Config.freeByte t.draws, { t with draws := t.draws + 1 })) := by
  have hmod : (dmaAddr page k).toNat % 8 = k % 8 := by
    rw [toNat_dmaAddr page hk]
    omega
  have h8 : k % 8 < 8 := Nat.mod_lt _ (by decide)
  unfold portOf isDraw
  rw [hmod]
  generalize k % 8 = r at h8
  interval_cases r <;> simp [portRead, portReadEffect]

theorem portsState_succ_of_draw (s : State) (m : Memory) {k : Nat} (h : isDraw k = true) :
    portsState s m (k + 1) = { portsState s m k with draws := (portsState s m k).draws + 1 } := by
  have hk := of_decide_eq_true h
  have hdiv : (k + 1) / 8 = k / 8 := by omega
  have hlt : 2 < k + 1 ↔ 2 < k := by omega
  simp [portsState, hdiv, hlt, Nat.count_succ, h, Nat.add_assoc]

theorem portsState_succ_of_status (s : State) (m : Memory) {k : Nat} (h : k % 8 = 2) :
    portsState s m (k + 1) = (portRead .status (portsState s m k)).2 := by
  have hdiv : (k + 1) / 8 = k / 8 := by omega
  have hlt : 2 < k + 1 := by omega
  cases hc : s.statusReadClearsW <;>
    simp [portsState, portRead, portReadEffect, isDraw, hdiv, hlt, Nat.count_succ, h, hc]

theorem portsState_succ_of_oamData (s : State) (m : Memory) {k : Nat} (h : k % 8 = 4) :
    portsState s m (k + 1) = portsState s m k := by
  have hdiv : (k + 1) / 8 = k / 8 := by omega
  have hlt : 2 < k + 1 ↔ 2 < k := by omega
  simp [portsState, isDraw, hdiv, hlt, Nat.count_succ, h]

theorem portsState_succ_of_data (s : State) (m : Memory) {k : Nat} (h : k % 8 = 7) :
    portsState s m (k + 1) = (portRead .data (portsState s m k)).2 := by
  have hdiv : (k + 1) / 8 = k / 8 + 1 := by omega
  have hlt : 2 < k + 1 ↔ 2 < k := by omega
  simp [portsState, portRead, portReadEffect, isDraw, hdiv, hlt, Nat.count_succ, h, BitVec.ofNat_add,
    BitVec.add_mul, BitVec.add_assoc]
  rfl

/-- One transfer from a page of ports; the OAM data port gives the entry at the OAM address. -/
theorem memRead_portsState {page : Byte} (h20 : 0x20 ≤ page.toNat) (h40 : page.toNat < 0x40) (s : State) {m : Memory}
    {k : Nat} (hk : k < 255) (hm : k % 8 = 4 → m.read s.ppu.oamAddr.toNat = Config.freeByte s.draws) :
    memRead (dmaAddr page k) (portsState s m k) = .ok (portsByte s k) (portsState s m (k + 1)) := by
  have haddr := toNat_dmaAddr page (k := k) (by omega)
  rw [memRead_ports (by omega) (by omega)]
  rcases portOf_dmaAddr_cases page (k := k) (by omega) with ⟨h, hport⟩ | ⟨h, hport⟩ | ⟨h, hport⟩ | ⟨h, hport⟩
  · rw [hport, ← portsState_succ_of_status s m h, portsByte, if_pos h]
    rfl
  · rw [hport, portsState_succ_of_oamData s m h, portsByte, if_neg (by omega), if_pos h, ← hm h]
    rfl
  · rw [hport, ← portsState_succ_of_data s m h, portsByte, if_neg (by omega), if_neg (by omega), if_pos h]
    rfl
  · obtain ⟨h2, h4, h7⟩ := of_decide_eq_true h
    rw [hport, portsState_succ_of_draw s m h, portsByte, if_neg h2, if_neg h4, if_neg h7]
    rfl

theorem oamEntry_zero (s : State) : oamEntry s 0 = s.ppu.oamAddr.toNat := Nat.mod_eq_of_lt s.ppu.oamAddr.isLt

/-- A DMA from a page of ports; by its fifth transfer the first has written the entry at the OAM address. -/
theorem oamDma_of_ports {page : Byte} {s : State} (h20 : 0x20 ≤ page.toNat) (h40 : page.toNat < 0x40)
    (hh : s.halted = none) :
    hostAct (.oamDma page) s = .next (portsState s (oamAfter s (portsByte s) 255) 255) := by
  refine oamDma_of_steps (S := fun k => portsState s (oamAfter s (portsByte s) k) k) ?_ hh fun k hk =>
    ⟨portsByte s k, _, memRead_portsState h20 h40 s hk fun h4 => ?_, rfl⟩
  · simp [portsState, oamAfter]
  · rw [← oamEntry_zero, read_oamAfter_of_lt s (portsByte s) (by omega) (by omega)]
    rfl

/-! ### O60 -/

theorem oamDma_ram {page : Byte} {s : State} (hp : page.toNat < 0x20) (hh : s.halted = none) :
    ∃ m, hostAct (.oamDma page) s = .next { s with ppu := { s.ppu with oam := m } } ∧
      (∀ k < 255, m.read (oamEntry s k) = s.ram.read ((page.toNat * 256 + k) % 0x800)) ∧
      m.read (oamEntry s 255) = s.ppu.oam.read (oamEntry s 255) := by
  refine ⟨_, oamDma_of_pure_reads (b := fun k => s.ram.read ((page.toNat * 256 + k) % 0x800)) hh fun k hk m => ?_,
    fun k hk => read_oamAfter_of_lt s _ hk (by decide), read_oamAfter_of_le s _ le_rfl (by decide)⟩
  have haddr := toNat_dmaAddr page (k := k) (by omega)
  rw [memRead_ram (by omega), ramIndex, haddr]

theorem oamDma_cartridge {page : Byte} {s : State} (hp : 0x80 ≤ page.toNat) (hh : s.halted = none) :
    ∃ m, hostAct (.oamDma page) s = .next { s with ppu := { s.ppu with oam := m } } ∧
      (∀ k < 255, memRead (pair page (BitVec.ofNat 8 k)) s = .ok (m.read (oamEntry s k)) s) ∧
      m.read (oamEntry s 255) = s.ppu.oam.read (oamEntry s 255) := by
  have hread {k : Nat} (hk : k < 255) (t : State) :
      memRead (dmaAddr page k) t = .ok (romByte t.cart (dmaAddr page k)) t := by
    have haddr := toNat_dmaAddr page (k := k) (by omega)
    exact memRead_cartridge (by omega) t
  refine ⟨_, oamDma_of_pure_reads (b := fun k => romByte s.cart (dmaAddr page k)) hh fun k hk m => hread hk _,
    fun k hk => ?_, read_oamAfter_of_le s _ le_rfl (by decide)⟩
  rw [← dmaAddr_eq_pair page (by omega), hread hk, read_oamAfter_of_lt s _ hk (by decide)]

theorem oamDma_ports {page : Byte} {s : State} (h20 : 0x20 ≤ page.toNat) (h40 : page.toNat < 0x40)
    (hh : s.halted = none) :
    ∃ m,
      hostAct (.oamDma page) s = .next
        { s with
          ppu :=
            { s.ppu with
              oam := m, v := s.ppu.v + BitVec.ofNat 16 31 * vramInc s.ppu
              w := s.ppu.w && !s.statusReadClearsW }
          draws := s.draws + 160 } ∧
      (∀ k < 255,
        (k % 8 = 2 → m.read (oamEntry s k) = s.ppu.status) ∧
        (k % 8 = 4 → m.read (oamEntry s k) = m.read (oamEntry s 0)) ∧
        (k % 8 = 7 → m.read (oamEntry s k) =
          s.ppu.vram.read ((s.ppu.v + BitVec.ofNat 16 (k / 8) * vramInc s.ppu).toNat % 0x4000))) ∧
      m.read (oamEntry s 255) = s.ppu.oam.read (oamEntry s 255) := by
  have hbyte {k : Nat} (hk : k < 255) : (oamAfter s (portsByte s) 255).read (oamEntry s k) = portsByte s k :=
    read_oamAfter_of_lt s _ hk (by decide)
  refine ⟨oamAfter s (portsByte s) 255, ?_, fun k hk => ⟨fun h => ?_, fun h => ?_, fun h => ?_⟩,
    read_oamAfter_of_le s _ le_rfl (by decide)⟩
  · have hcount : Nat.count (isDraw ·) 255 = 160 := by decide +kernel
    rw [oamDma_of_ports h20 h40 hh, portsState, hcount]
    simp
  · rw [hbyte hk, portsByte, if_pos h]
  · rw [hbyte hk, hbyte (by decide), portsByte, if_neg (by omega), if_pos h]
    rfl
  · rw [hbyte hk, portsByte, if_neg (by omega), if_neg (by omega), if_pos h]

/-- A DMA from an unmapped page faults at its first byte. -/
theorem oamDma_unmapped {page : Byte} {s : State} (h40 : 0x40 ≤ page.toNat) (h80 : page.toNat < 0x80) :
    oamDma page s = .fault (.busFault (pair page 0)) s := by
  have hzero : dmaAddr page 0 = pair page 0 := dmaAddr_eq_pair page (by decide)
  have haddr := toNat_dmaAddr page (k := 0) (by decide)
  have hread : memRead (dmaAddr page 0) s = .fault (.busFault (pair page 0)) s := by
    rw [memRead_unmapped (by omega) (by omega), hzero]
  exact (oamDmaFrom_succ 254 0 page s).trans (congrArg (Res.bind · _) hread)

/-- Settles O60, a range of pages at a time. -/
theorem oamDmaMoves255Bytes : Obligations.OamDmaMoves255Bytes := fun _ _ hh =>
  ⟨fun hp => oamDma_ram hp hh, fun hp => oamDma_cartridge hp hh, fun h20 h40 => oamDma_ports h20 h40 hh,
    fun h40 h80 => hostAct_oamDma_fault hh (oamDma_unmapped h40 h80)⟩

end Sys2Proof.Proofs.Dma
end
